-- ==== Sys2Proof/Word.lean ====
section
/-! DEFINITION. The word types of the block: 00_scope.md R8, R10, R11. -/

namespace Sys2Proof

/-- A byte: a register address, a value written, a byte received (R8, R11). -/
abbrev Byte := BitVec 8

/-- A 32-bit host register or command word (R10). -/
abbrev Word := BitVec 32

/-- A 7-bit bus device address (R8). -/
abbrev DevAddr := BitVec 7

end Sys2Proof
end

