-- ==== Sys2Proof/Syntax.lean ====
section
/-! DEFINITION. The commands: one constructor per row of spec/opcode_table.json (30_encoding.md R82). -/

namespace Sys2Proof

/-- A command of the block, its operands as the fields of the command word (R80, R81). -/
inductive Instr where
  /-- OPEN: open the bus (40_transport.md R101) -/
  | openBus
  /-- WRITE dev, ra, val: write one device register (R102) -/
  | write (dev : DevAddr) (ra val : Byte)
  /-- READ dev, ra, cnt: read a block of device registers (R103) -/
  | read (dev : DevAddr) (ra cnt : Byte)
  /-- DETECT: identify the sensor package (41_driver.md R131) -/
  | detect
  /-- ENABLE: program the configuration registers (R140) -/
  | enable
  /-- RDACC: read one acceleration sample (R151) -/
  | rdacc
  /-- RDGYR: read one angular-rate sample (R152) -/
  | rdgyr
  /-- RDMAG: read one magnetic-field sample (R153) -/
  | rdmag
deriving DecidableEq, Repr

end Sys2Proof
end

