-- ==== Sys2Proof/WellFormed.lean ====
section
/-! DEFINITION. Which commands have a word: 30_encoding.md R83. The operand widths are in the types, so
the READ count is the one condition left. -/

namespace Sys2Proof

/-- R83: `1 ≤ cnt ≤ 6`, since the receive buffer holds 6 bytes (R10). -/
def readCountOk (cnt : Byte) : Bool :=
  decide (1 ≤ cnt.toNat) && decide (cnt.toNat ≤ 6)

/-- The command has a legal command word. -/
def Instr.wf : Instr → Bool
  | .read _ _ cnt => readCountOk cnt
  | .openBus => true
  | .write _ _ _ => true
  | .detect => true
  | .enable => true
  | .rdacc => true
  | .rdgyr => true
  | .rdmag => true

end Sys2Proof
end

