-- ==== Sys2Proof/Decode.lean ====
section
/-! DEFINITION. Command words: fields, decoder, encoder and the match/mask table (30_encoding.md R80 to R87). -/

namespace Sys2Proof

/-! ### The fields of a word (R80, R81) -/

def opField (w : Word) : BitVec 4 := w.extractLsb' 0 4
def rsv0Field (w : Word) : BitVec 4 := w.extractLsb' 4 4
def devField (w : Word) : DevAddr := w.extractLsb' 8 7
def rsv1Field (w : Word) : BitVec 1 := w.extractLsb' 15 1
def regField (w : Word) : Byte := w.extractLsb' 16 8
def argField (w : Word) : Byte := w.extractLsb' 24 8
/-- Bits 31:8, which format Z needs to be zero once RSV0 is (R80, R84). -/
def operandBits (w : Word) : BitVec 24 := w.extractLsb' 8 24

/-- Why a word is no command: the four grounds R86 lists (log 12). -/
inductive Illegal where
  /-- OP is 0x0 or 0x9 to 0xF -/
  | reservedOp
  /-- RSV0 or RSV1 is not zero -/
  | reservedBits
  /-- a format Z command has operand bits -/
  | operandBits
  /-- a READ count outside 1 to 6 -/
  | readCount
deriving DecidableEq, Repr

/-- A format Z command: its operand bits are all zero (R80, R84). -/
def decodeZ (w : Word) (i : Instr) : Except Illegal Instr :=
  if operandBits w ≠ 0 then .error .operandBits else .ok i

/-- The decoder, total on every word (R84). -/
def decode (w : Word) : Except Illegal Instr :=
  if rsv0Field w ≠ 0 ∨ rsv1Field w ≠ 0 then .error .reservedBits
  else match (opField w).toNat with
    | 0x1 => decodeZ w .openBus
    | 0x2 => .ok (.write (devField w) (regField w) (argField w))
    | 0x3 =>
      if readCountOk (argField w) then .ok (.read (devField w) (regField w) (argField w))
      else .error .readCount
    | 0x4 => decodeZ w .detect
    | 0x5 => decodeZ w .enable
    | 0x6 => decodeZ w .rdacc
    | 0x7 => decodeZ w .rdgyr
    | 0x8 => decodeZ w .rdmag
    | _ => .error .reservedOp

/-- What the decoder reads from an instruction of the opcode table; every one is a single 32-bit word
(R87), so a number that does not fit one is none. -/
def decodeTableWord (_nbits w : Nat) : Option Instr :=
  if w < 2 ^ 32 then (decode (BitVec.ofNat 32 w)).toOption else none

/-! ### The encoder -/

/-- The OP field of a command (R82). -/
def opCode : Instr → BitVec 4
  | .openBus => 0x1
  | .write _ _ _ => 0x2
  | .read _ _ _ => 0x3
  | .detect => 0x4
  | .enable => 0x5
  | .rdacc => 0x6
  | .rdgyr => 0x7
  | .rdmag => 0x8

/-- R81: `encode(op, dev, reg, arg) = (arg << 24) | (reg << 16) | (dev << 8) | op`. -/
def encodeFields (op : BitVec 4) (dev : DevAddr) (ra arg : Byte) : Word :=
  arg.setWidth 32 <<< 24 ||| ra.setWidth 32 <<< 16 ||| dev.setWidth 32 <<< 8 ||| op.setWidth 32

/-- The command word of a command (R81, R82). -/
def encode (i : Instr) : Word :=
  match i with
  | .write dev ra val => encodeFields (opCode i) dev ra val
  | .read dev ra cnt => encodeFields (opCode i) dev ra cnt
  | .openBus => encodeFields (opCode i) 0 0 0
  | .detect => encodeFields (opCode i) 0 0 0
  | .enable => encodeFields (opCode i) 0 0 0
  | .rdacc => encodeFields (opCode i) 0 0 0
  | .rdgyr => encodeFields (opCode i) 0 0 0
  | .rdmag => encodeFields (opCode i) 0 0 0

/-! ### The match/mask table (R83) -/

/-- A command's mnemonic (R82). -/
def Instr.mnemonic : Instr → String
  | .openBus => "OPEN"
  | .write _ _ _ => "WRITE"
  | .read _ _ _ => "READ"
  | .detect => "DETECT"
  | .enable => "ENABLE"
  | .rdacc => "RDACC"
  | .rdgyr => "RDGYR"
  | .rdmag => "RDMAG"

/-- One row of R83's table. -/
structure TableRow where
  mnemonic : String
  pattern : Word
  mask : Word
  /-- the row also needs a READ count of 1 to 6 -/
  counted : Bool
deriving DecidableEq, Repr

/-- R83's table. -/
def commandTable : List TableRow :=
  [⟨"OPEN", 0x00000001, 0xFFFFFFFF, false⟩,
   ⟨"WRITE", 0x00000002, 0x000080FF, false⟩,
   ⟨"READ", 0x00000003, 0x000080FF, true⟩,
   ⟨"DETECT", 0x00000004, 0xFFFFFFFF, false⟩] ++
  [⟨"ENABLE", 0x00000005, 0xFFFFFFFF, false⟩,
   ⟨"RDACC", 0x00000006, 0xFFFFFFFF, false⟩,
   ⟨"RDGYR", 0x00000007, 0xFFFFFFFF, false⟩,
   ⟨"RDMAG", 0x00000008, 0xFFFFFFFF, false⟩]

/-- R83: `(w & mask) = match` and the row's other condition. -/
def TableRow.hits (r : TableRow) (w : Word) : Bool :=
  w &&& r.mask == r.pattern && (!r.counted || readCountOk (argField w))

end Sys2Proof
end

