-- ==== Sys2Proof/Config/Types.lean ====
section
/-! DEFINITION. The data types of the block's parameters (00_scope.md R9, 41_driver.md R142) and of the
environment's inputs (00_scope.md R13). -/

namespace Sys2Proof

/-- The two sub-devices of the sensor package (R2): accelerometer/gyroscope and magnetometer. -/
inductive SubDevice where
  | ag
  | m
deriving DecidableEq, Repr, Inhabited

/-- What a configuration write does, as R142 annotates it; the block never looks at it. -/
inductive Role where
  /-- enables block-data-update on its sub-device -/
  | bdu
  /-- starts generating new samples on its sub-device -/
  | start
deriving DecidableEq, Repr, Inhabited

/-- One entry of `ENABLE_SEQ` (R142). -/
structure EnableEntry where
  sub : SubDevice
  ra : Byte
  val : Byte
  roles : List Role
deriving DecidableEq, Repr, Inhabited

/-- The parameters of the block (R9), with `BLOCK_BASE` (20_memory.md R76). Fixed for the life of the
block and no part of its state (10_state.md R38). Durations, the timeout and the base are numbers without
a unit (log 2). -/
structure Config where
  addrAg : DevAddr
  addrM : DevAddr
  idAgReg : Byte
  idAgVal : Byte
  idMReg : Byte
  idMVal : Byte
  accDataReg : Byte
  gyrDataReg : Byte
  magDataReg : Byte
  enableSeq : List EnableEntry
  tSettle : Nat
  /-- how many controller turns the platform lets pass before it answers; `none`: no bound (R177) -/
  busTimeout : Option Nat
  blockBase : Nat
deriving DecidableEq, Repr, Inhabited

/-- What the platform answers to a transaction (20_memory.md R62): success, and for a read the bytes
received, in order. A write has no bytes. -/
structure Answer where
  ok : Bool
  bytes : List Byte
deriving DecidableEq, Repr, Inhabited

/-- Whose step comes next in the one total order (R13, R70). -/
inductive Turn where
  /-- the host makes its next access -/
  | host
  /-- the controller takes a step; the platform offers an answer, or has not answered -/
  | controller (answer : Option Answer)
  /-- the reset input is asserted (70_reset_and_hazards.md R200) -/
  | reset
deriving DecidableEq, Repr, Inhabited

end Sys2Proof
end

