-- ==== Sys2Proof/Machine/EnableSeq.lean ====
section
/-! DEFINITION. When a configuration is well formed: 41_driver.md R143, 00_scope.md R9. -/

namespace Sys2Proof

/-- The entry targets `s` and enables block-data-update there. -/
def EnableEntry.enablesBdu (s : SubDevice) (e : EnableEntry) : Bool :=
  e.sub == s && e.roles.contains .bdu

/-- The entry targets `s` and starts sampling there. -/
def EnableEntry.starts (s : SubDevice) (e : EnableEntry) : Bool :=
  e.sub == s && e.roles.contains .start

/-- R143, condition 2, on one sub-device: if some entry on `s` has BDU, no entry before the first such
entry has START on `s`. -/
def bduBeforeStart (s : SubDevice) (seq : List EnableEntry) : Bool :=
  !seq.any (·.enablesBdu s) || (seq.takeWhile (fun e => !e.enablesBdu s)).all (fun e => !e.starts s)

/-- R143: `ENABLE_SEQ` writes to both sub-devices and keeps the BDU order on each. -/
def enableSeqWf (seq : List EnableEntry) : Bool :=
  seq.any (·.sub == .ag) && seq.any (·.sub == .m) && bduBeforeStart .ag seq && bduBeforeStart .m seq

/-- A configuration the block is defined for: `ADDR_AG ≠ ADDR_M` (R9) and R143. -/
def Config.wf (c : Config) : Bool :=
  c.addrAg != c.addrM && enableSeqWf c.enableSeq

/-- The bus address of a sub-device (R140: `addr(AG) = ADDR_AG`, `addr(M) = ADDR_M`). -/
def Config.addrOf (c : Config) : SubDevice → DevAddr
  | .ag => c.addrAg
  | .m => c.addrM

/-- The window offset of a physical address, if it lies in the block's window (R21, R76). -/
def Config.offsetOf (c : Config) (addr : Nat) : Option Nat :=
  if c.blockBase ≤ addr ∧ addr < c.blockBase + 0x40 then some (addr - c.blockBase) else none

end Sys2Proof
end

