-- ==== Sys2Proof/Config.lean ====
section
/-! DEFINITION. The implementation's constants: the parameters of 00_scope.md R9 and the free schedule.
Nothing here has a value a proof could see. -/

namespace Sys2Proof

/-- The test configuration TC of 95_test_vectors.md section 0. It serves the tests, and shows below that
well-formed configurations exist. It is NOT the block's configuration. TC names no settling time, no
timeout and no base; those are 0 or absent here. -/
def Config.tc : Config where
  addrAg := 0x6B
  addrM := 0x1E
  idAgReg := 0x0F
  idAgVal := 0x68
  idMReg := 0x0F
  idMVal := 0x3D
  accDataReg := 0x28
  gyrDataReg := 0x18
  magDataReg := 0x28
  enableSeq :=
    [⟨.ag, 0x22, 0x44, [.bdu]⟩, ⟨.ag, 0x20, 0xC0, [.start]⟩, ⟨.ag, 0x21, 0x00, []⟩,
     ⟨.ag, 0x10, 0xC0, [.start]⟩, ⟨.m, 0x24, 0x40, [.bdu]⟩, ⟨.m, 0x20, 0x7C, []⟩,
     ⟨.m, 0x21, 0x00, []⟩, ⟨.m, 0x23, 0x0C, []⟩, ⟨.m, 0x22, 0x00, [.start]⟩]
  tSettle := 0
  busTimeout := none
  blockBase := 0

/-- A configuration together with the proof that the block is defined for it. The default values only
show that the type is inhabited, which an opaque constant of it needs (log 1). -/
structure WfConfig where
  cfg : Config := Config.tc
  wf : cfg.wf = true := by decide
deriving Inhabited

/-- A configuration is taken if it is well formed and refused if not (R143; log 1). -/
def Config.checked (c : Config) : Option WfConfig :=
  if h : c.wf = true then some ⟨c, h⟩ else none

/-- The block's parameters (R9, R38): some well-formed configuration, and nothing more is known (log 1). -/
opaque Config.params : WfConfig

/-- Whose turn it is when the schedule in State lists no more turns: a free value (R13, R70; log 4). -/
opaque Config.freeTurn : Nat → Turn

end Sys2Proof
end

