-- ==== Sys2Proof/Machine/State.lean ====
section
/-! DEFINITION. The machine's state as plain data (10_state.md), why a step can stop, and the state after
reset (10_state.md R39). -/

namespace Sys2Proof.Machine

/-- The error codes of STATUS.ERR (60_exceptions.md R172). -/
inductive ErrCode where
  | ok
  | illegal
  | busClosed
  | notVerified
  | busFail
  | short
  | absent
deriving DecidableEq, Repr

/-- The bus primitives of a procedure, with the settling delay (00_scope.md R12, 20_memory.md R60, R63).
No step has a duration (log 14). -/
inductive Prim where
  | busOpen
  | delay (t : Nat)
  | busWrite (dev : DevAddr) (b0 b1 : Byte)
  | busRead (dev : DevAddr) (rb : Byte) (n : Nat)
deriving DecidableEq, Repr

/-- The events of the bus event log (20_memory.md R63). -/
inductive Event where
  | evOpen
  | evDelay (t : Nat)
  | evWrite (dev : DevAddr) (b0 b1 : Byte) (ok : Bool)
  | evRead (dev : DevAddr) (rb : Byte) (n : Nat) (ok : Bool) (bytes : List Byte)
deriving DecidableEq, Repr

/-- Where a running command stands (R33, `seq.pos`). -/
inductive Pos where
  /-- its guard check comes next -/
  | start
  /-- primitive `k` of its procedure comes next; at the procedure's length, the completion -/
  | prim (k : Nat)
  /-- its guard check ended the procedure: the completion with this code comes next (60_exceptions.md R171;
  log 6) -/
  | exit (e : ErrCode)
deriving DecidableEq, Repr

/-- A running sequencer (R33). `answers` are its local values: what the platform has answered to this
command so far, oldest first (log 8). -/
structure Sequencer where
  cmd : Instr
  pos : Pos
  answers : List Answer
deriving DecidableEq, Repr

/-- What a command writes at its completion (60_exceptions.md R171): the code, the bytes of a receiving
command, the two match bits of a DETECT. -/
structure Completion where
  err : ErrCode
  rx : Option (List Byte) := none
  idm : Option (Bool × Bool) := none
deriving DecidableEq, Repr

/-- An operation of the host's program (30_encoding.md R88, R89). `size` is the access width in bytes: the
block supports 4 only (20_memory.md R52). -/
inductive HostOp where
  /-- `hr off` -/
  | read (size off : Nat)
  /-- `hw off, v` -/
  | write (size off : Nat) (v : Word)
  /-- `WAIT`: read STATUS until its bit 0 is 0 -/
  | wait
deriving DecidableEq, Repr

/-- The machine. The first twelve fields are the block (10_state.md R23 to R40), the next two the host, the
last three the environment's inputs (log 3, log 4). -/
structure State where
  /-- STATUS.BUSY (R24) -/
  busy : Bool
  /-- STATUS.VERIFIED (R27) -/
  verified : Bool
  /-- STATUS.BUS_OPEN (R25) -/
  busOpen : Bool
  /-- STATUS.OVR (R26) -/
  ovr : Bool
  /-- STATUS.ERR (R28) -/
  err : ErrCode
  /-- STATUS.IDM_AG (R29) -/
  idmAg : Bool
  /-- STATUS.IDM_M (R29) -/
  idmM : Bool
  /-- STATUS.LAST_OP (R30) -/
  lastOp : BitVec 4
  /-- RXCNT.CNT (R31) -/
  rxcnt : BitVec 8
  /-- the receive buffer (R32) -/
  rxbuf : Vector Byte 6
  /-- the sequencer, `none` when idle (R33) -/
  seq : Option Sequencer
  /-- the bus event log, oldest first (R40) -/
  log : List Event
  /-- what the host has still to do -/
  program : List HostOp
  /-- the values the host's reads gave it, oldest first -/
  hostReads : List Word
  /-- the turns to come; when none is listed the turn is a free value -/
  turns : List Turn
  /-- how many free turns have been drawn -/
  tick : Nat
  /-- the platform's answer in this turn -/
  answer : Option Answer
deriving DecidableEq, Repr

/-- Why the machine stops with a fault. The block itself has none (60_exceptions.md R170). -/
inductive Fault where
  /-- Raised by the controller's step when BUSY, the position and the local values do not fit each other, so
  that no rule gives a step. No run from reset comes there (10_state.md R37 b). Safe (log 9). -/
  | sequencerLost
deriving DecidableEq, Repr

/-- Why a step is refused. -/
inductive Refusal where
  /-- Raised by `exec` for a command without a meaning; none is. Safe. -/
  | notModelled (mnemonic : String)
  /-- Raised by the host's step for a misaligned, sub-word or out-of-window access, which has no step
  (20_memory.md R52, 60_exceptions.md R176). Safe (log 10). -/
  | unsupportedAccess
deriving DecidableEq, Repr

/-- The machine right after reset: the block as 10_state.md R39 says; no host program and no inputs placed
(log 11). -/
def State.reset : State where
  busy := false
  verified := false
  busOpen := false
  ovr := false
  err := .ok
  idmAg := false
  idmM := false
  lastOp := 0
  rxcnt := 0
  rxbuf := #v[0, 0, 0, 0, 0, 0]
  seq := none
  log := []
  program := []
  hostReads := []
  turns := []
  tick := 0
  answer := none

end Sys2Proof.Machine
end

