-- ==== Sys2Proof/Machine/Flags.lean ====
section
/-! DEFINITION. How the status values are computed: error codes, the STATUS word, the result of a read, an
identity match (10_state.md R23, 60_exceptions.md R172, 40_transport.md R104, 41_driver.md R132). -/

namespace Sys2Proof.Machine

/-- The code's number in STATUS.ERR (R172). -/
def errBits : ErrCode → BitVec 4
  | .ok => 0
  | .illegal => 1
  | .busClosed => 2
  | .notVerified => 3
  | .busFail => 4
  | .short => 5
  | .absent => 6

/-- One bit of a 32-bit register, at place `i`. -/
def bitAt (i : Nat) (b : Bool) : Word := (BitVec.ofBool b).setWidth 32 <<< i

/-- The STATUS word, each field shifted to its place and zeros in the reserved ones (R23). -/
def State.status (s : State) : Word :=
  bitAt 0 s.busy ||| bitAt 1 s.verified ||| bitAt 2 s.busOpen ||| bitAt 3 s.ovr |||
    (errBits s.err).setWidth 32 <<< 4 ||| bitAt 8 s.idmAg ||| bitAt 9 s.idmM |||
    s.lastOp.setWidth 32 <<< 16

/-- The code of a read that asked for `cnt` bytes (R104, `rx_result`). -/
def rxResult (ok : Bool) (n cnt : Nat) : ErrCode :=
  if !ok then .busFail else if n < cnt then .short else .ok

/-- R132: the read succeeded, gave exactly one byte, and that byte is the expected one. -/
def idMatch (a : Answer) (v : Byte) : Bool :=
  a.ok && a.bytes.length == 1 && a.bytes.head? == some v

end Sys2Proof.Machine
end

