-- ==== Sys2Proof/Machine/Operands.lean ====
section
/-! DEFINITION. What the commands work on: the register byte of a magnetometer read, each command's
procedure, guard and completion, the host's view of the registers, and the host's reading of a sample
(40_transport.md, 41_driver.md, 20_memory.md R51 to R57). -/

namespace Sys2Proof.Machine

/-! ### Procedures: the primitives of each command, in order -/

/-- The register byte of a magnetometer data read: `MAG_DATA_REG | 0x80` (R153). -/
def magRegByte (c : Config) : Byte := c.magDataReg ||| 0x80

/-- OPEN (R101). -/
def openPrims : List Prim := [.busOpen]

/-- WRITE (R102): register, then value (R58). -/
def writePrims (dev : DevAddr) (ra val : Byte) : List Prim := [.busWrite dev ra val]

/-- READ (R103): the register byte goes out unchanged. -/
def readPrims (dev : DevAddr) (ra cnt : Byte) : List Prim := [.busRead dev ra cnt.toNat]

/-- DETECT (R131): open, settle, the AG identity read, the M identity read. -/
def detectPrims (c : Config) : List Prim :=
  [.busOpen, .delay c.tSettle, .busRead c.addrAg c.idAgReg 1, .busRead c.addrM c.idMReg 1]

/-- ENABLE (R140): one write per entry of `ENABLE_SEQ`, in list order. -/
def enablePrims (c : Config) : List Prim :=
  c.enableSeq.map fun e => .busWrite (c.addrOf e.sub) e.ra e.val

/-- An axis read (R150): one read of 6 bytes. -/
def axisPrims (dev : DevAddr) (rb : Byte) : List Prim := [.busRead dev rb 6]

/-- The fixed procedure of every command (R35). -/
def procedure (c : Config) : Instr → List Prim
  | .openBus => openPrims
  | .write dev ra val => writePrims dev ra val
  | .read dev ra cnt => readPrims dev ra cnt
  | .detect => detectPrims c
  | .enable => enablePrims c
  | .rdacc => axisPrims c.addrAg c.accDataReg
  | .rdgyr => axisPrims c.addrAg c.gyrDataReg
  | .rdmag => axisPrims c.addrM (magRegByte c)

/-! ### Guard checks: where a procedure goes first (log 6) -/

/-- OPEN and DETECT run BusOpen only when the bus is closed (R101, R131). -/
def openIfClosed (s : State) : Pos := if s.busOpen then .prim 1 else .prim 0

/-- WRITE and READ need an open bus (R100). -/
def needBusOpen (s : State) : Pos := if s.busOpen then .prim 0 else .exit .busClosed

/-- ENABLE and the axis reads need a Verified block (R141, R150). -/
def needVerified (s : State) : Pos := if s.verified then .prim 0 else .exit .notVerified

/-- The guard of every command. -/
def guardOf (i : Instr) (s : State) : Pos :=
  match i with
  | .openBus => openIfClosed s
  | .write _ _ _ => needBusOpen s
  | .read _ _ _ => needBusOpen s
  | .detect => openIfClosed s
  | .enable => needVerified s
  | .rdacc => needVerified s
  | .rdgyr => needVerified s
  | .rdmag => needVerified s

/-! ### Completions: what a command writes at its end, from the answers it received -/

/-- OPEN cannot fail (R101). -/
def openDone : List Answer → Option Completion
  | [] => some { err := .ok }
  | _ :: _ => none

/-- WRITE: BUS_FAIL when the transaction failed (R102). -/
def writeDone : List Answer → Option Completion
  | [a] => some { err := if a.ok then .ok else .busFail }
  | [] => none
  | _ :: _ :: _ => none

/-- A receiving command that asked for `cnt` bytes (R103, R104, R150): what came is committed, whatever
`ok` is. -/
def rxDone (cnt : Nat) : List Answer → Option Completion
  | [a] => some { err := rxResult a.ok a.bytes.length cnt, rx := some a.bytes }
  | [] => none
  | _ :: _ :: _ => none

/-- DETECT: the match bits, and ABSENT unless both match (R131, R132). -/
def detectDone (c : Config) : List Answer → Option Completion
  | [a, m] =>
    let ma := idMatch a c.idAgVal
    let mm := idMatch m c.idMVal
    some { err := if ma && mm then .ok else .absent, idm := some (ma, mm) }
  | [] => none
  | [_] => none
  | _ :: _ :: _ :: _ => none

/-- ENABLE: BUS_FAIL if any write failed (R140). -/
def enableDone (answers : List Answer) : Option Completion :=
  some { err := if answers.all (·.ok) then .ok else .busFail }

/-- The completion of every command. -/
def doneOf (c : Config) : Instr → List Answer → Option Completion
  | .openBus => openDone
  | .write _ _ _ => writeDone
  | .read _ _ cnt => rxDone cnt.toNat
  | .detect => detectDone c
  | .enable => enableDone
  | .rdacc => rxDone 6
  | .rdgyr => rxDone 6
  | .rdmag => rxDone 6

/-! ### The host's view of the registers (20_memory.md R51, R53, R57) -/

/-- RXCNT: CNT in bits 7:0 (10_state.md R31). -/
def State.rxcntWord (s : State) : Word := s.rxcnt.setWidth 32

/-- Byte `k` of a 32-bit register, in bits `8k+7 : 8k` (R57). -/
def byteAt (k : Nat) (b : Byte) : Word := b.setWidth 32 <<< (8 * k)

/-- RXDATA0 = `{rxbuf[3], rxbuf[2], rxbuf[1], rxbuf[0]}` (R32). -/
def State.rxdata0 (s : State) : Word :=
  byteAt 0 s.rxbuf[0] ||| byteAt 1 s.rxbuf[1] ||| byteAt 2 s.rxbuf[2] ||| byteAt 3 s.rxbuf[3]

/-- RXDATA1 = `{0x0000, rxbuf[5], rxbuf[4]}` (R32). -/
def State.rxdata1 (s : State) : Word := byteAt 0 s.rxbuf[4] ||| byteAt 1 s.rxbuf[5]

/-- What a supported host read returns (R51); CMD and the reserved offsets read 0 (R22, R53). -/
def State.hostRegister (s : State) (off : Nat) : Word :=
  if off = 0x04 then s.status
  else if off = 0x08 then s.rxcntWord
  else if off = 0x0C then s.rxdata0
  else if off = 0x10 then s.rxdata1
  else 0

/-- Only aligned 32-bit accesses inside the window are supported (R51, R52). -/
def supported (size off : Nat) : Bool :=
  size == 4 && off % 4 == 0 && decide (off < 0x40)

/-! ### The host's reading of a sample (41_driver.md R160); the block computes none of it -/

/-- A signed 16-bit little-endian value (two's complement: log 13). -/
def sample16 (lo hi : Byte) : Int := (hi ++ lo).toInt

def State.sampleX (s : State) : Int := sample16 s.rxbuf[0] s.rxbuf[1]
def State.sampleY (s : State) : Int := sample16 s.rxbuf[2] s.rxbuf[3]
def State.sampleZ (s : State) : Int := sample16 s.rxbuf[4] s.rxbuf[5]

/-- The value whose high byte is `rxbuf[hi]` is valid. R160 gives a condition it needs (both its bytes have index
below RXCNT), and the model takes it for enough (log 17). -/
def State.valueValid (s : State) (hi : Nat) : Bool := decide (hi < s.rxcnt.toNat)

/-- The whole sample is valid. R160 gives a condition it needs (ERR = OK and RXCNT = 6), and the model takes it for
enough (log 17). -/
def State.sampleValid (s : State) : Bool := s.err == .ok && s.rxcnt == 6

end Sys2Proof.Machine
end

