-- ==== Sys2Proof/Machine/Ops.lean ====
section
/-! DEFINITION. The named operations: submission (30_encoding.md R85, R86), running one primitive
(20_memory.md R60 to R63), completion (60_exceptions.md R171), one step of a command, and block reset
(70_reset_and_hazards.md R200). The block takes no exceptions (R170): `complete` with a code is its only
reaction to a failure (R180). -/

namespace Sys2Proof.Machine

open Host (Outcome)

/-! ### Submission -/

/-- A CMD write while BUSY is dropped: OVR is set, nothing else changes (R85, R26). -/
def dropSubmission (s : State) : State := { s with ovr := true }

/-- An illegal word is rejected (R86). -/
def reject (w : Word) (s : State) : State :=
  { s with ovr := false, lastOp := opField w, err := .illegal }

/-- A legal command is accepted and latched (R85). -/
def accept (i : Instr) (s : State) : State :=
  { s with
    ovr := false
    lastOp := opCode i
    seq := some { cmd := i, pos := .start, answers := [] }
    busy := true }

/-! ### Running -/

/-- Append an event to the bus event log (R40, R63). -/
def State.logEvent (s : State) (e : Event) : State := { s with log := s.log ++ [e] }

/-- Put the sequencer of the running command `q` at `pos`. -/
def State.goto (s : State) (q : Sequencer) (pos : Pos) : State := { s with seq := some { q with pos := pos } }

/-- Put the sequencer at primitive `k`, keeping one more answer. -/
def State.keepAnswer (s : State) (q : Sequencer) (k : Nat) (a : Answer) : State :=
  { s with seq := some { q with pos := .prim k, answers := q.answers ++ [a] } }

/-- BusOpen: sets BUS_OPEN in the step that runs it (R25, R101). -/
def State.openTheBus (s : State) : State := { s with busOpen := true }

/-- Primitive `p` of the running command, which is its `k`-th, as one controller step: the event is logged
and the sequencer moves on. BusOpen and Delay always return; BusWrite and BusRead wait in place until the
platform answers (R62, R177). Of a read's bytes at most `n` count (R62; log 5). -/
def runPrim (p : Prim) (k : Nat) (q : Sequencer) (s : State) : State :=
  match p with
  | .busOpen => (((s.logEvent .evOpen).openTheBus).goto q (.prim (k + 1)))
  | .delay t => (s.logEvent (.evDelay t)).goto q (.prim (k + 1))
  | .busWrite dev b0 b1 =>
    match s.answer with
    | none => s
    | some a => (s.logEvent (.evWrite dev b0 b1 a.ok)).keepAnswer q (k + 1) { ok := a.ok, bytes := [] }
  | .busRead dev rb n =>
    match s.answer with
    | none => s
    | some a =>
      (s.logEvent (.evRead dev rb n a.ok (a.bytes.take n))).keepAnswer q (k + 1)
        { ok := a.ok, bytes := a.bytes.take n }

/-! ### Completion -/

/-- The received bytes go to `rxbuf[0 .. n-1]`; the rest of the buffer is unchanged (R104, R32). -/
def commitBytes (bytes : List Byte) (buf : Vector Byte 6) : Vector Byte 6 :=
  Vector.ofFn fun i => bytes.getD i.val buf[i]

/-- `rx_commit` (R104): the buffer and RXCNT, when a bus read ran. -/
def rxCommit (rx : Option (List Byte)) (s : State) : State :=
  match rx with
  | none => s
  | some bytes => { s with rxbuf := commitBytes bytes s.rxbuf, rxcnt := BitVec.ofNat 8 bytes.length }

/-- DETECT's completion writes (R131): the match bits; VERIFIED is set if both match, never cleared. -/
def idmCommit (idm : Option (Bool × Bool)) (s : State) : State :=
  match idm with
  | none => s
  | some (ma, mm) => { s with idmAg := ma, idmM := mm, verified := s.verified || (ma && mm) }

/-- `complete(e)` (R171): the pending writes, ERR, BUSY and the sequencer in one step. -/
def complete (c : Completion) (s : State) : State :=
  { idmCommit c.idm (rxCommit c.rx s) with err := c.err, busy := false, seq := none }

/-! ### One atomic step of a command -/

/-- One controller step of the running command `q` (R85): its guard check, its next primitive, or its
completion. -/
def commandTurn (guard : Pos) (prims : List Prim) (done : List Answer → Option Completion) (q : Sequencer)
    (s : State) : Outcome State Fault Refusal :=
  match q.pos with
  | .start => .next (s.goto q guard)
  | .exit e => .next (complete { err := e } s)
  | .prim k =>
    match prims[k]? with
    | some p => .next (runPrim p k q s)
    | none =>
      if k = prims.length then
        match done q.answers with
        | some c => .next (complete c s)
        | none => .fault .sequencerLost
      else .fault .sequencerLost

/-- What the block does with command `i`: an idle block accepts it (or rejects it, if it has no legal word,
R86), the block that runs it takes its next step, and a block that runs another command drops it (R85;
log 7). -/
def runCommand (i : Instr) (guard : Pos) (prims : List Prim) (done : List Answer → Option Completion)
    (s : State) : Outcome State Fault Refusal :=
  if s.busy then
    match s.seq with
    | none => .fault .sequencerLost
    | some q => if q.cmd = i then commandTurn guard prims done q s else .next (dropSubmission s)
  else .next (if i.wf then accept i s else reject (encode i) s)

/-! ### Reset -/

/-- Block reset (R200, R201): every piece of block state takes its reset value in one step; the host's
program and the inputs to come are not the block's and stay (log 11). -/
def blockReset (s : State) : State :=
  { State.reset with
    program := s.program
    hostReads := s.hostReads
    turns := s.turns
    tick := s.tick
    answer := s.answer }

end Sys2Proof.Machine
end

