-- ==== Sys2Proof/Machine/Agents.lean ====
section
/-! DEFINITION. The steps of the host and of the controller, and whose turn it is (00_scope.md R13,
10_state.md R20, 20_memory.md R51 to R55, R70). They are written over the function `ex` that runs a
command, so that the machine (`ex` is `exec`) and a machine under a named configuration share them. -/

namespace Sys2Proof.Machine

open Host (Outcome)

/-- A host write of `w` to CMD (30_encoding.md R85). -/
def submit (ex : Instr → State → Outcome State Fault Refusal) (w : Word) (s : State) :
    Outcome State Fault Refusal :=
  if s.busy then .next (dropSubmission s)
  else match decode w with
    | .ok i => ex i s
    | .error _ => .next (reject w s)

/-- A supported host write: CMD is the only register it has an effect on (R51, R53, R55). -/
def hostWrite (ex : Instr → State → Outcome State Fault Refusal) (off : Nat) (v : Word) (s : State) :
    Outcome State Fault Refusal :=
  if off = 0 then submit ex v s else .next s

/-- A host read gives the host a value and changes nothing in the block (R54). -/
def State.hostSees (s : State) (v : Word) : State := { s with hostReads := s.hostReads ++ [v] }

/-- The host has made the first operation of its program. -/
def State.programRest (s : State) (ops : List HostOp) : State := { s with program := ops }

/-- The host's step: the next operation of its program. An unsupported access has no step (R52). WAIT reads
STATUS and stays while its bit 0 is 1 (R89). A host with no program makes no access (log 15). -/
def hostStep (ex : Instr → State → Outcome State Fault Refusal) (s : State) :
    Outcome State Fault Refusal :=
  match s.program with
  | [] => .next s
  | .read size off :: ops =>
    if supported size off then .next ((s.programRest ops).hostSees (s.hostRegister off))
    else .refused .unsupportedAccess
  | .write size off v :: ops =>
    if supported size off then hostWrite ex off v (s.programRest ops)
    else .refused .unsupportedAccess
  | .wait :: ops =>
    if s.status.getLsbD 0 then .next (s.hostSees s.status)
    else .next ((s.programRest ops).hostSees s.status)

/-- The controller's step: the next step of the latched command; an idle controller does nothing (R202). -/
def controllerStep (ex : Instr → State → Outcome State Fault Refusal) (s : State) :
    Outcome State Fault Refusal :=
  if s.busy then
    match s.seq with
    | some q => ex q.cmd s
    | none => .fault .sequencerLost
  else .next s

/-- The answer a turn brings. -/
def offeredBy : Turn → Option Answer
  | .controller a => a
  | .host => none
  | .reset => none

/-- Whose turn it is: the first of the list, or a free value when none is listed (log 4). -/
def State.turnNow (s : State) : Turn :=
  match s.turns with
  | t :: _ => t
  | [] => Config.freeTurn s.tick

/-- The state once the turn is taken from the inputs. -/
def State.turnTaken (s : State) : State :=
  match s.turns with
  | t :: ts => { s with turns := ts, answer := offeredBy t }
  | [] => { s with tick := s.tick + 1, answer := offeredBy (Config.freeTurn s.tick) }

/-- What the agent whose turn it is does. -/
def agentStep (ex : Instr → State → Outcome State Fault Refusal) (t : Turn) (s : State) :
    Outcome State Fault Refusal :=
  match t with
  | .host => hostStep ex s
  | .controller _ => controllerStep ex s
  | .reset => .next (blockReset s)

/-- One step of the whole machine in the one total order (R70). -/
def stepWith (ex : Instr → State → Outcome State Fault Refusal) (s : State) :
    Outcome State Fault Refusal :=
  agentStep ex s.turnNow s.turnTaken

/-- One step of command `i` under a named configuration; `exec` is this under `Config.params`. -/
def execUnder (c : Config) (i : Instr) (s : State) : Outcome State Fault Refusal :=
  runCommand i (guardOf i s) (procedure c i) (doneOf c i) s

/-- The host is about to write `w` to CMD and the block is ready to take it (log 3). -/
def placeSubmission (w : Word) (s : State) : State :=
  { s with
    busy := false
    seq := none
    program := .write 4 0 w :: s.program
    turns := .host :: s.turns }

end Sys2Proof.Machine
end

