-- ==== Sys2Proof/Machine/Driver.lean ====
section
/-! DEFINITION. The driver commands: DETECT, ENABLE, RDACC, RDGYR and RDMAG (41_driver.md R130 to R161). Each
is written for any configuration `c`; the machine runs it with `Config.params` (00_scope.md R9; log 1). -/

namespace Sys2Proof.Machine

open Host (Outcome)

/-- DETECT under configuration `c` (R131): BusOpen if the bus is closed, the settling delay, both identity
reads, then the match bits, VERIFIED, and OK or ABSENT. -/
def detectStep (c : Config) (s : State) : Outcome State Fault Refusal :=
  runCommand .detect (openIfClosed s) (detectPrims c) (detectDone c) s

/-- ENABLE under configuration `c` (R140, R141): NOT_VERIFIED on an Unverified block, else every write of
`ENABLE_SEQ`, then OK or BUS_FAIL. -/
def enableStep (c : Config) (s : State) : Outcome State Fault Refusal :=
  runCommand .enable (needVerified s) (enablePrims c) enableDone s

/-- RDACC under configuration `c` (R150, R151). -/
def rdaccStep (c : Config) (s : State) : Outcome State Fault Refusal :=
  runCommand .rdacc (needVerified s) (axisPrims c.addrAg c.accDataReg) (rxDone 6) s

/-- RDGYR under configuration `c` (R150, R152). -/
def rdgyrStep (c : Config) (s : State) : Outcome State Fault Refusal :=
  runCommand .rdgyr (needVerified s) (axisPrims c.addrAg c.gyrDataReg) (rxDone 6) s

/-- RDMAG under configuration `c` (R150, R153): the register byte carries the 0x80 bit. -/
def rdmagStep (c : Config) (s : State) : Outcome State Fault Refusal :=
  runCommand .rdmag (needVerified s) (axisPrims c.addrM (magRegByte c)) (rxDone 6) s

def execDetect (s : State) : Outcome State Fault Refusal := detectStep Config.params.cfg s

def execEnable (s : State) : Outcome State Fault Refusal := enableStep Config.params.cfg s

def execRdacc (s : State) : Outcome State Fault Refusal := rdaccStep Config.params.cfg s

def execRdgyr (s : State) : Outcome State Fault Refusal := rdgyrStep Config.params.cfg s

def execRdmag (s : State) : Outcome State Fault Refusal := rdmagStep Config.params.cfg s

end Sys2Proof.Machine
end

