-- ==== Sys2Proof/Machine/Transport.lean ====
section
/-! DEFINITION. The transport commands: OPEN, WRITE and READ (40_transport.md R100 to R105). They read
neither VERIFIED nor any parameter. -/

namespace Sys2Proof.Machine

open Host (Outcome)

/-- OPEN (R101): BusOpen if the bus is closed, then OK. -/
def execOpenBus (s : State) : Outcome State Fault Refusal :=
  runCommand .openBus (openIfClosed s) openPrims openDone s

/-- WRITE dev, ra, val (R102): BUS_CLOSED on a closed bus, else one BusWrite, then OK or BUS_FAIL. -/
def execWrite (dev : DevAddr) (ra val : Byte) (s : State) : Outcome State Fault Refusal :=
  runCommand (.write dev ra val) (needBusOpen s) (writePrims dev ra val) writeDone s

/-- READ dev, ra, cnt (R103): BUS_CLOSED on a closed bus, else one BusRead, then the bytes are committed
and the code is BUS_FAIL, SHORT or OK (R104). -/
def execRead (dev : DevAddr) (ra cnt : Byte) (s : State) : Outcome State Fault Refusal :=
  runCommand (.read dev ra cnt) (needBusOpen s) (readPrims dev ra cnt) (rxDone cnt.toNat) s

end Sys2Proof.Machine
end

