-- ==== Sys2Proof/Machine/Dispatch.lean ====
section
/-! DEFINITION. One arm per command. -/

namespace Sys2Proof.Machine

open Host (Outcome)

/-- The next atomic step of command `i` (30_encoding.md R85; log 7). -/
def exec (i : Instr) (s : State) : Outcome State Fault Refusal :=
  match i with
  | .openBus => Sys2Proof.Machine.execOpenBus s
  | .write dev ra val => Sys2Proof.Machine.execWrite dev ra val s
  | .read dev ra cnt => Sys2Proof.Machine.execRead dev ra cnt s
  | .detect => Sys2Proof.Machine.execDetect s
  | .enable => Sys2Proof.Machine.execEnable s
  | .rdacc => Sys2Proof.Machine.execRdacc s
  | .rdgyr => Sys2Proof.Machine.execRdgyr s
  | .rdmag => Sys2Proof.Machine.execRdmag s

end Sys2Proof.Machine
end

