-- ==== Sys2Proof/Machine/Step.lean ====
section
/-! DEFINITION. One step of the machine, and how a command word is placed for it. -/

namespace Sys2Proof.Machine

open Host (Outcome)

/-- One step: a host access, a controller step or a reset (00_scope.md R13, 20_memory.md R70). -/
def step (s : State) : Outcome State Fault Refusal := stepWith exec s

/-- The state whose next step is the submission of the word `w` to an idle block. The block fetches no
instructions (20_memory.md R73): a command word reaches it by the host's write to CMD (log 3). -/
def State.withFetchWord (s : State) (_nbits w : Nat) : State := placeSubmission (BitVec.ofNat 32 w) s

end Sys2Proof.Machine
end

