-- ==== Sys2Proof/Machine/Assembler.lean ====
section
/-! DEFINITION. The host's text: command syntax and host operations (30_encoding.md R88), and the
pseudo-instructions SUBMIT, WAIT and DO (R89). Lexical details are log 16. -/

namespace Sys2Proof.Machine

/-- `SUBMIT <command>` (R89). -/
def submitOp (i : Instr) : HostOp := .write 4 0x00 (encode i)

/-- `DO <command>` (R89): WAIT, SUBMIT, WAIT. -/
def doOps (i : Instr) : List HostOp := [.wait, submitOp i, .wait]

/-! ### Reading text, as lists of characters -/

/-- The parts of `cs` between the separators. -/
def splitChars (sep : Char) : List Char → List (List Char)
  | [] => [[]]
  | c :: cs =>
    if c = sep then [] :: splitChars sep cs
    else match splitChars sep cs with
      | [] => [[c]]
      | p :: ps => (c :: p) :: ps

def dropBlanks (cs : List Char) : List Char := cs.dropWhile (· == ' ')

/-- Without the blanks at either end. -/
def trimChars (cs : List Char) : List Char := (dropBlanks (dropBlanks cs).reverse).reverse

/-- The value of a hexadecimal digit. -/
def digitValue (c : Char) : Option Nat :=
  if '0' ≤ c ∧ c ≤ '9' then some (c.toNat - '0'.toNat)
  else if 'a' ≤ c ∧ c ≤ 'f' then some (c.toNat - 'a'.toNat + 10)
  else if 'A' ≤ c ∧ c ≤ 'F' then some (c.toNat - 'A'.toNat + 10)
  else none

/-- The digits' value in `base`, added to `acc`. -/
def digitsValue (base : Nat) : List Char → Nat → Option Nat
  | [], acc => some acc
  | c :: cs, acc =>
    match digitValue c with
    | some d => if d < base then digitsValue base cs (acc * base + d) else none
    | none => none

/-- A number, decimal or `0x` hexadecimal (R88). -/
def readNumber : List Char → Option Nat
  | [] => none
  | '0' :: 'x' :: [] => none
  | '0' :: 'x' :: c :: cs => digitsValue 16 (c :: cs) 0
  | c :: cs => digitsValue 10 (c :: cs) 0

/-- An offset: a register's name or a number (R88). -/
def readOffset (cs : List Char) : Option Nat :=
  match String.ofList cs with
  | "CMD" => some 0x00
  | "STATUS" => some 0x04
  | "RXCNT" => some 0x08
  | "RXDATA0" => some 0x0C
  | "RXDATA1" => some 0x10
  | _ => readNumber cs

/-- All of the list's values, or none. -/
def allSome {α : Type} : List (Option α) → Option (List α)
  | [] => some []
  | some x :: xs => (allSome xs).map (x :: ·)
  | none :: _ => none

/-- The first word and the comma-separated operands after it. -/
def lineParts (cs : List Char) : String × List (List Char) :=
  let body := trimChars cs
  let rest := trimChars (body.dropWhile (· != ' '))
  (String.ofList (body.takeWhile (· != ' ')),
    if rest.isEmpty then [] else (splitChars ',' rest).map trimChars)

/-- A command from its mnemonic and operands; an operand out of range is refused (R88). -/
def assembleCommand (mnemonic : String) (operands : List Nat) : Option Instr :=
  match mnemonic, operands with
  | "OPEN", [] => some .openBus
  | "WRITE", [dev, ra, val] =>
    if dev < 0x80 ∧ ra < 0x100 ∧ val < 0x100 then
      some (.write (BitVec.ofNat 7 dev) (BitVec.ofNat 8 ra) (BitVec.ofNat 8 val))
    else none
  | "READ", [dev, ra, cnt] =>
    if dev < 0x80 ∧ ra < 0x100 ∧ 1 ≤ cnt ∧ cnt ≤ 6 then
      some (.read (BitVec.ofNat 7 dev) (BitVec.ofNat 8 ra) (BitVec.ofNat 8 cnt))
    else none
  | "DETECT", [] => some .detect
  | "ENABLE", [] => some .enable
  | "RDACC", [] => some .rdacc
  | "RDGYR", [] => some .rdgyr
  | "RDMAG", [] => some .rdmag
  | _, _ => none

/-- A command from its text (R88). -/
def assembleText (cs : List Char) : Option Instr :=
  match allSome ((lineParts cs).2.map readNumber) with
  | some operands => assembleCommand (lineParts cs).1 operands
  | none => none

/-- The host operations of one program line: `hw`, `hr`, `WAIT`, `SUBMIT` or `DO` (R88, R89). -/
def assembleLine (cs : List Char) : Option (List HostOp) :=
  let code := cs.takeWhile (· != ';')
  let rest := (trimChars code).dropWhile (· != ' ')
  match lineParts code with
  | ("hw", [off, val]) =>
    match readOffset off, readNumber val with
    | some o, some v => if v < 2 ^ 32 then some [.write 4 o (BitVec.ofNat 32 v)] else none
    | _, _ => none
  | ("hr", [off]) => (readOffset off).map fun o => [.read 4 o]
  | ("WAIT", []) => some [.wait]
  | ("SUBMIT", _) => (assembleText rest).map fun i => [submitOp i]
  | ("DO", _) => (assembleText rest).map doOps
  | _ => none

/-- The host program of a text, one line an operation; refused as a whole if a line is refused. -/
def assemble (lines : List String) : Option (List HostOp) :=
  (allSome (lines.map fun l => assembleLine l.toList)).map List.flatten

end Sys2Proof.Machine
end

