-- ==== Sys2Proof/Safety.lean ====
section
/-! DEFINITION. What claims are stated with: the invariant of the block (10_state.md R37 and what the rules
add to it), safe runs, and the premise that the platform answers (60_exceptions.md R177). -/

namespace Sys2Proof.Machine

/-! ### The invariant -/

/-- The answers a command holds are those of the transactions it has run (R33), within R62's limits. -/
def answersFit : List Prim → List Answer → Bool
  | [], [] => true
  | [], _ :: _ => false
  | .busOpen :: ps, as => answersFit ps as
  | .delay _ :: ps, as => answersFit ps as
  | .busWrite _ _ _ :: ps, a :: as => a.bytes.isEmpty && answersFit ps as
  | .busRead _ _ n :: ps, a :: as => decide (a.bytes.length ≤ n) && answersFit ps as
  | .busWrite _ _ _ :: _, [] => false
  | .busRead _ _ _ :: _, [] => false

/-- The code with which a command's guard can end it (R174). -/
def guardCode : Instr → Option ErrCode
  | .openBus => none
  | .write _ _ _ => some .busClosed
  | .read _ _ _ => some .busClosed
  | .detect => none
  | .enable => some .notVerified
  | .rdacc => some .notVerified
  | .rdgyr => some .notVerified
  | .rdmag => some .notVerified

/-- What the guard has established once primitive `k` is next: the bus is open, or still closed before the
BusOpen of OPEN and DETECT; the block is Verified for the guarded driver commands. -/
def guardHolds (i : Instr) (k : Nat) (s : State) : Bool :=
  match i with
  | .openBus => s.busOpen == decide (k ≠ 0)
  | .detect => s.busOpen == decide (k ≠ 0)
  | .write _ _ _ => s.busOpen
  | .read _ _ _ => s.busOpen
  | .enable => s.verified
  | .rdacc => s.verified
  | .rdgyr => s.verified
  | .rdmag => s.verified

/-- A running sequencer the rules can reach under configuration `c`. -/
def seqOk (c : Config) (q : Sequencer) (s : State) : Bool :=
  q.cmd.wf && s.lastOp == opCode q.cmd &&
    match q.pos with
    | .start => q.answers.isEmpty
    | .exit e => q.answers.isEmpty && guardCode q.cmd == some e
    | .prim k =>
      decide (k ≤ (procedure c q.cmd).length) && answersFit ((procedure c q.cmd).take k) q.answers &&
        guardHolds q.cmd k s

/-- An event within R62's limit: a read returns at most the bytes asked for. -/
def eventOk : Event → Bool
  | .evOpen => true
  | .evDelay _ => true
  | .evWrite _ _ _ _ => true
  | .evRead _ _ n _ bytes => decide (bytes.length ≤ n)

/-- The log of a block: empty while the bus is closed, and otherwise it begins with its only EvOpen
(R25, R100, R101). -/
def logOk (s : State) : Bool :=
  s.log.all eventOk &&
    match s.log with
    | [] => !s.busOpen
    | e :: es => s.busOpen && e == .evOpen && !es.contains .evOpen

/-- The invariant of the block under configuration `c`. -/
structure BlockInvUnder (c : Config) (s : State) : Prop where
  /-- R37 (a) -/
  verified_busOpen : s.verified = true → s.busOpen = true
  /-- R37 (b) -/
  busy_iff : s.busy = s.seq.isSome
  /-- R37 (c) -/
  rxcnt_le : s.rxcnt.toNat ≤ 6
  seq_ok : ∀ q, s.seq = some q → seqOk c q s = true
  log_ok : logOk s = true

/-- The invariant of the block. -/
def BlockInv (s : State) : Prop := BlockInvUnder Config.params.cfg s

/-! ### Words for claims -/

/-- Command `i` is running at `pos`, holding the answers `as`. -/
def Runs (i : Instr) (pos : Pos) (as : List Answer) (s : State) : Prop :=
  s.busy = true ∧ s.seq = some { cmd := i, pos := pos, answers := as }

/-- `k` steps of the machine, ending early at a stop. -/
def runFor (k : Nat) (s : State) : Host.Outcome State Fault Refusal := Sys2Proof.core.run k s

/-- The codes a command can complete with (60_exceptions.md R173). -/
def codesOf : Instr → List ErrCode
  | .openBus => [.ok]
  | .write _ _ _ => [.ok, .busClosed, .busFail]
  | .read _ _ _ => [.ok, .busClosed, .busFail, .short]
  | .detect => [.ok, .absent]
  | .enable => [.ok, .notVerified, .busFail]
  | .rdacc => [.ok, .notVerified, .busFail, .short]
  | .rdgyr => [.ok, .notVerified, .busFail, .short]
  | .rdmag => [.ok, .notVerified, .busFail, .short]

/-- The receiving commands (10_state.md R31). -/
def receives : Instr → Bool
  | .read _ _ _ => true
  | .rdacc => true
  | .rdgyr => true
  | .rdmag => true
  | .openBus => false
  | .write _ _ _ => false
  | .detect => false
  | .enable => false

/-- The transport commands (40_transport.md). -/
def isTransport : Instr → Bool
  | .openBus => true
  | .write _ _ _ => true
  | .read _ _ _ => true
  | .detect => false
  | .enable => false
  | .rdacc => false
  | .rdgyr => false
  | .rdmag => false

/-- The axis reads with the device and register byte each sends (41_driver.md R151 to R153). -/
def axisReads (c : Config) : List (Instr × DevAddr × Byte) :=
  [(.rdacc, c.addrAg, c.accDataReg), (.rdgyr, c.addrAg, c.gyrDataReg), (.rdmag, c.addrM, magRegByte c)]

/-- The event a configuration write logs (41_driver.md R140). -/
def writeEvent (c : Config) (e : EnableEntry) (a : Answer) : Event :=
  .evWrite (c.addrOf e.sub) e.ra e.val a.ok

/-- The same configuration without the role annotations of `ENABLE_SEQ` (41_driver.md R142). -/
def withoutRoles (c : Config) : Config :=
  { c with enableSeq := c.enableSeq.map fun e => { e with roles := [] } }

/-! ### Safe runs -/

/-- The host makes supported accesses only (20_memory.md R52). -/
def opSupported : HostOp → Bool
  | .read size off => supported size off
  | .write size off _ => supported size off
  | .wait => true

/-- Every access of the host's program is supported. -/
def programSupported (s : State) : Bool := s.program.all opSupported

/-- A step that does not stop. -/
def StepSafe (s : State) : Prop := ∃ t, step s = .next t

/-- The same block: equal in every field that is not the host's or an input. -/
structure SameBlock (s t : State) : Prop where
  busy : s.busy = t.busy
  verified : s.verified = t.verified
  busOpen : s.busOpen = t.busOpen
  ovr : s.ovr = t.ovr
  err : s.err = t.err
  idmAg : s.idmAg = t.idmAg
  idmM : s.idmM = t.idmM
  lastOp : s.lastOp = t.lastOp
  rxcnt : s.rxcnt = t.rxcnt
  rxbuf : s.rxbuf = t.rxbuf
  seq : s.seq = t.seq
  log : s.log = t.log

/-! ### Progress (R177) -/

/-- Where a position stands in a procedure of `len` primitives: it only grows (R35). -/
def posRank (len : Nat) : Pos → Nat
  | .start => 0
  | .prim k => k + 1
  | .exit _ => len + 1

/-- The controller steps the running command still needs at most, if every primitive is answered. -/
def stepsLeft (c : Config) (s : State) : Nat :=
  match s.seq with
  | none => 0
  | some q => (procedure c q.cmd).length + 2 - posRank (procedure c q.cmd).length q.pos

/-- The command waits for the platform: its next primitive is a transaction. -/
def awaitsAnswer (c : Config) (s : State) : Bool :=
  match s.seq with
  | none => false
  | some q =>
    match q.pos with
    | .start => false
    | .exit _ => false
    | .prim k =>
      match (procedure c q.cmd)[k]? with
      | some (.busWrite _ _ _) => true
      | some (.busRead _ _ _) => true
      | some .busOpen => false
      | some (.delay _) => false
      | none => false

/-- The controller's turns in a schedule. -/
def controllerTurns : List Turn → Nat
  | [] => 0
  | .host :: ts => controllerTurns ts
  | .reset :: ts => controllerTurns ts
  | .controller _ :: ts => controllerTurns ts + 1

/-- `BUS_TIMEOUT` as the premise R177 asks for: with the bound `n`, no `n + 1` controller turns in a row of
the schedule go unanswered. `missed` counts the unanswered ones so far. -/
def timeoutMet (bound : Nat) : Nat → List Turn → Bool
  | _, [] => true
  | missed, .host :: ts => timeoutMet bound missed ts
  | _, .reset :: ts => timeoutMet bound 0 ts
  | _, .controller (some _) :: ts => timeoutMet bound 0 ts
  | missed, .controller none :: ts => decide (missed < bound) && timeoutMet bound (missed + 1) ts

end Sys2Proof.Machine
end

