-- ==== Sys2Proof/Certificates/Slice0/Obligations.lean ====
section
/-! DEFINITION. The statements for the provers. Each docstring names the rule of spec/ it formalises. -/

open Sys2Proof Sys2Proof.Machine
open Host (Outcome)

/-! ### Encoding -/

/-- R81, R83, R84: decoding a well-formed command's word gives the command back, at every operand; and a word
that decodes has one meaning, a well-formed command whose word it is. -/
def Obligations.DecodeAndEncodeAgree : Prop :=
  (∀ i : Instr, i.wf = true → decode (encode i) = .ok i) ∧
  (∀ (w : Word) (i : Instr), decode w = .ok i → encode i = w ∧ i.wf = true)

/-- R83: a word is the listed command exactly when mask, match and the READ count say so, and no word
matches two rows. -/
def Obligations.WordsMatchTheTable : Prop :=
  (∀ (w : Word) (r : TableRow), r ∈ commandTable →
    (r.hits w = true ↔ ∃ i, decode w = .ok i ∧ i.mnemonic = r.mnemonic)) ∧
  (∀ (w : Word) (r r' : TableRow), r ∈ commandTable → r' ∈ commandTable →
    r.hits w = true → r'.hits w = true → r = r')

/-- R90: the texts worked out there assemble to their words, and the words decode to the commands. -/
def Obligations.SpecWordsDecode : Prop :=
  ∀ p ∈ [("OPEN", (0x00000001 : Word), Instr.openBus),
      ("WRITE 0x6B, 0x22, 0x44", 0x44226B02, .write 0x6B 0x22 0x44),
      ("READ 0x1E, 0x28, 6", 0x06281E03, .read 0x1E 0x28 6),
      ("READ 0x6B, 0x0F, 1", 0x010F6B03, .read 0x6B 0x0F 1),
      ("DETECT", 0x00000004, .detect), ("ENABLE", 0x00000005, .enable), ("RDACC", 0x00000006, .rdacc),
      ("RDGYR", 0x00000007, .rdgyr), ("RDMAG", 0x00000008, .rdmag)],
    (assembleText p.1.toList).map encode = some p.2.1 ∧ decode p.2.1 = .ok p.2.2

/-- R86: which words are rejected, and that rejection by an idle block writes ERR, LAST_OP and OVR only. -/
def Obligations.IllegalWordRejected : Prop :=
  (∀ w : Word, (∃ e, decode w = .error e) ↔
    (opField w = 0 ∨ 9 ≤ (opField w).toNat ∨ w.extractLsb' 4 4 ≠ 0 ∨ w.getLsbD 15 = true ∨
      (opField w ≠ 2 ∧ opField w ≠ 3 ∧ w.extractLsb' 8 24 ≠ 0) ∨
      (opField w = 3 ∧ (w.extractLsb' 24 8 = 0 ∨ 6 < (w.extractLsb' 24 8).toNat)))) ∧
  (∀ (s : State) (w : Word) (e : Illegal) (ops : List HostOp) (ts : List Turn),
    s.turns = .host :: ts → s.program = .write 4 0 w :: ops → s.busy = false → decode w = .error e →
    step s = .next { s with
      ovr := false, lastOp := w.extractLsb' 0 4, err := .illegal
      turns := ts, answer := none, program := ops })

/-! ### Steps of the two agents -/

/-- R85: the three outcomes of a CMD write, each one atomic step. -/
def Obligations.SubmissionDropsRejectsOrAccepts : Prop :=
  ∀ (s : State) (w : Word) (ops : List HostOp) (ts : List Turn),
    s.turns = .host :: ts → s.program = .write 4 0 w :: ops →
    (s.busy = true →
      step s = .next { s with ovr := true, turns := ts, answer := none, program := ops }) ∧
    (∀ e, s.busy = false → decode w = .error e →
      step s = .next { s with
        ovr := false, lastOp := opField w, err := .illegal
        turns := ts, answer := none, program := ops }) ∧
    (∀ i, s.busy = false → decode w = .ok i →
      step s = .next { s with
        ovr := false, lastOp := opField w, busy := true
        seq := some { cmd := i, pos := .start, answers := [] }
        turns := ts, answer := none, program := ops })

/-- R85, R70: when the host writes to CMD a word that decodes to `i` and the block is idle, the step is
`exec i` of the state once the turn and the host's operation are taken. -/
def Obligations.StepRunsTheSubmittedCommand : Prop :=
  ∀ (s : State) (w : Word) (i : Instr) (ops : List HostOp) (ts : List Turn),
    s.turns = .host :: ts → s.program = .write 4 0 w :: ops → s.busy = false → decode w = .ok i →
    step s = exec i { s with turns := ts, answer := none, program := ops }

/-- R85, R13: on the controller's turn a busy block's step is `exec` of the latched command, with the
platform's answer of that turn. -/
def Obligations.StepRunsTheLatchedCommand : Prop :=
  ∀ (s : State) (q : Sequencer) (a : Option Answer) (ts : List Turn),
    s.turns = .controller a :: ts → s.busy = true → s.seq = some q →
    step s = exec q.cmd { s with turns := ts, answer := a }

/-- The model's choice (log 4): with no turn listed, the step is that of a free turn, and the counter moves
on. -/
def Obligations.FreeTurnWhenNoneIsListed : Prop :=
  ∀ s : State, s.turns = [] →
    step s = agentStep exec (Config.freeTurn s.tick)
      { s with tick := s.tick + 1, answer := offeredBy (Config.freeTurn s.tick) }

/-- R85, R86 and the model's choice of what `exec` is handed (log 7): an idle block accepts a well-formed
command and rejects any other; a block that runs another command drops it. -/
def Obligations.ExecAcceptsRejectsOrDrops : Prop :=
  ∀ (i : Instr) (s : State),
    (s.busy = false → i.wf = true →
      exec i s = .next { s with
        ovr := false, lastOp := opCode i, busy := true
        seq := some { cmd := i, pos := .start, answers := [] } }) ∧
    (s.busy = false → i.wf = false →
      exec i s = .next { s with ovr := false, lastOp := opCode i, err := .illegal }) ∧
    (∀ q, s.busy = true → s.seq = some q → q.cmd ≠ i → exec i s = .next { s with ovr := true })

/-- R54: a supported host read returns the register's value and changes nothing in the block. -/
def Obligations.HostReadHasNoSideEffect : Prop :=
  ∀ (s : State) (off : Nat) (ops : List HostOp) (ts : List Turn),
    s.turns = .host :: ts → s.program = .read 4 off :: ops → off % 4 = 0 → off < 0x40 →
    step s = .next { s with
      hostReads := s.hostReads ++ [s.hostRegister off], turns := ts, answer := none, program := ops }

/-- R51 (the reads), R22, R53: what each offset reads as. -/
def Obligations.HostRegisterMap : Prop :=
  ∀ s : State,
    s.hostRegister 0x00 = 0 ∧ s.hostRegister 0x04 = s.status ∧
    s.hostRegister 0x08 = s.rxcnt.setWidth 32 ∧
    s.hostRegister 0x0C = s.rxdata0 ∧ s.hostRegister 0x10 = s.rxdata1 ∧
    (∀ off, 0x14 ≤ off → s.hostRegister off = 0)

/-- R53, R55: a supported write to any register but CMD changes nothing in the block. -/
def Obligations.OtherWritesAreIgnored : Prop :=
  ∀ (s : State) (off : Nat) (v : Word) (ops : List HostOp) (ts : List Turn),
    s.turns = .host :: ts → s.program = .write 4 off v :: ops → off % 4 = 0 → off < 0x40 → off ≠ 0 →
    step s = .next { s with turns := ts, answer := none, program := ops }

/-- R52: a host access that is not an aligned 32-bit access inside the window is refused. -/
def Obligations.UnsupportedAccessIsRefused : Prop :=
  ∀ (s : State) (size off : Nat) (v : Word) (ops : List HostOp) (ts : List Turn),
    s.turns = .host :: ts → (s.program = .read size off :: ops ∨ s.program = .write size off v :: ops) →
    (size ≠ 4 ∨ off % 4 ≠ 0 ∨ 0x40 ≤ off) →
    step s = .refused .unsupportedAccess

/-- R89: SUBMIT, WAIT and DO. A WAIT step reads STATUS and stays exactly while BUSY is 1. -/
def Obligations.PseudoInstructionsExpand : Prop :=
  (∀ i : Instr, submitOp i = .write 4 0 (encode i) ∧ doOps i = [.wait, submitOp i, .wait]) ∧
  (∀ (s : State) (ops : List HostOp) (ts : List Turn),
    s.turns = .host :: ts → s.program = .wait :: ops →
    step s = .next { s with
      hostReads := s.hostReads ++ [s.status], turns := ts, answer := none
      program := if s.busy then s.program else ops })

/-- R202: the idle block does nothing by itself; its state right after reset is idle and Unverified. -/
def Obligations.IdleControllerDoesNothing : Prop :=
  (State.reset.busy = false ∧ State.reset.verified = false) ∧
  (∀ (s : State) (a : Option Answer) (ts : List Turn),
    s.turns = .controller a :: ts → s.busy = false → step s = .next { s with turns := ts, answer := a })

/-! ### Status and data words, reset -/

/-- R23: every field of the STATUS word stands in its place, and the reserved bits read 0. -/
def Obligations.StatusFieldsInPlace : Prop :=
  ∀ s : State,
    s.status.getLsbD 0 = s.busy ∧ s.status.getLsbD 1 = s.verified ∧
    s.status.getLsbD 2 = s.busOpen ∧ s.status.getLsbD 3 = s.ovr ∧
    s.status.extractLsb' 4 4 = errBits s.err ∧
    s.status.getLsbD 8 = s.idmAg ∧ s.status.getLsbD 9 = s.idmM ∧
    s.status.extractLsb' 10 6 = 0 ∧ s.status.extractLsb' 16 4 = s.lastOp ∧
    s.status.extractLsb' 20 12 = 0

/-- R172: the codes, and that 7 to 15 are never shown. -/
def Obligations.ErrorCodeNumbers : Prop :=
  errBits .ok = 0 ∧ errBits .illegal = 1 ∧ errBits .busClosed = 2 ∧ errBits .notVerified = 3 ∧
  errBits .busFail = 4 ∧ errBits .short = 5 ∧ errBits .absent = 6 ∧
  (∀ s : State, (s.status.extractLsb' 4 4).toNat ≤ 6)

/-- R57, R32: `rxbuf[k]` stands in bits `8(k mod 4)+7 : 8(k mod 4)` of RXDATA(k div 4), and the upper half
of RXDATA1 reads 0. -/
def Obligations.ReceiveBufferPacking : Prop :=
  ∀ s : State,
    (∀ (k : Nat) (h : k < 6),
      (s.hostRegister (0x0C + 4 * (k / 4))).extractLsb' (8 * (k % 4)) 8 = s.rxbuf[k]) ∧
    (s.hostRegister 0x10).extractLsb' 16 16 = 0

/-- R39: the block's state after reset. -/
def Obligations.ResetValues : Prop :=
  State.reset.busy = false ∧ State.reset.verified = false ∧ State.reset.busOpen = false ∧
  State.reset.ovr = false ∧ State.reset.err = .ok ∧ State.reset.idmAg = false ∧
  State.reset.idmM = false ∧ State.reset.lastOp = 0 ∧ State.reset.rxcnt = 0 ∧
  (∀ (k : Nat) (h : k < 6), State.reset.rxbuf[k] = 0) ∧ State.reset.seq = none ∧
  State.reset.log = []

/-- R200, R201: the reset input sets every piece of block state to its reset value in one step, whatever
was running. -/
def Obligations.ResetTurnResetsTheBlock : Prop :=
  ∀ (s : State) (ts : List Turn), s.turns = .reset :: ts →
    ∃ t, step s = .next t ∧ SameBlock t State.reset

/-! ### What each command does, one controller step at a time -/

/-- R101: OPEN. That the BUS_OPEN check is a step of its own is log 6. -/
def Obligations.OpenSteps : Prop :=
  ∀ (s : State) (as : List Answer),
    (Runs .openBus .start as s →
      exec .openBus s = .next { s with
        seq := some { cmd := .openBus, pos := if s.busOpen then .prim 1 else .prim 0, answers := as } }) ∧
    (Runs .openBus (.prim 0) as s →
      exec .openBus s = .next { s with
        busOpen := true, log := s.log ++ [.evOpen]
        seq := some { cmd := .openBus, pos := .prim 1, answers := as } }) ∧
    (Runs .openBus (.prim 1) [] s →
      exec .openBus s = .next { s with err := .ok, busy := false, seq := none })

/-- R102: WRITE. -/
def Obligations.WriteSteps : Prop :=
  ∀ (dev : DevAddr) (ra val : Byte) (s : State) (as : List Answer) (a : Answer),
    (Runs (.write dev ra val) .start as s →
      exec (.write dev ra val) s = .next { s with
        seq := some {
          cmd := .write dev ra val, answers := as
          pos := if s.busOpen then .prim 0 else .exit .busClosed } }) ∧
    (Runs (.write dev ra val) (.exit .busClosed) as s →
      exec (.write dev ra val) s = .next { s with err := .busClosed, busy := false, seq := none }) ∧
    (Runs (.write dev ra val) (.prim 0) as s → s.answer = some a →
      exec (.write dev ra val) s = .next { s with
        log := s.log ++ [.evWrite dev ra val a.ok]
        seq := some {
          cmd := .write dev ra val, pos := .prim 1, answers := as ++ [{ ok := a.ok, bytes := [] }] } }) ∧
    (Runs (.write dev ra val) (.prim 1) [a] s →
      exec (.write dev ra val) s = .next { s with
        err := if a.ok then .ok else .busFail, busy := false, seq := none })

/-- R103: READ. What the bytes do to `rxbuf` is `ReceivedBytesAreCommitted`. -/
def Obligations.ReadSteps : Prop :=
  ∀ (dev : DevAddr) (ra cnt : Byte) (s : State) (as : List Answer) (a : Answer),
    (Runs (.read dev ra cnt) .start as s →
      exec (.read dev ra cnt) s = .next { s with
        seq := some {
          cmd := .read dev ra cnt, answers := as
          pos := if s.busOpen then .prim 0 else .exit .busClosed } }) ∧
    (Runs (.read dev ra cnt) (.exit .busClosed) as s →
      exec (.read dev ra cnt) s = .next { s with err := .busClosed, busy := false, seq := none }) ∧
    (Runs (.read dev ra cnt) (.prim 0) as s → s.answer = some a → a.bytes.length ≤ cnt.toNat →
      exec (.read dev ra cnt) s = .next { s with
        log := s.log ++ [.evRead dev ra cnt.toNat a.ok a.bytes]
        seq := some { cmd := .read dev ra cnt, pos := .prim 1, answers := as ++ [a] } }) ∧
    (Runs (.read dev ra cnt) (.prim 1) [a] s →
      exec (.read dev ra cnt) s = .next { s with
        rxbuf := commitBytes a.bytes s.rxbuf, rxcnt := BitVec.ofNat 8 a.bytes.length
        err := if a.ok = false then .busFail else if a.bytes.length < cnt.toNat then .short else .ok
        busy := false, seq := none })

/-- R104: `rx_commit` and `rx_result`. -/
def Obligations.ReceivedBytesAreCommitted : Prop :=
  (∀ (bytes : List Byte) (buf : Vector Byte 6) (i : Nat) (h : i < 6),
    (commitBytes bytes buf)[i] = if hi : i < bytes.length then bytes[i] else buf[i]) ∧
  (∀ (bytes : List Byte) (s : State), bytes.length ≤ 6 →
    (rxCommit (some bytes) s).rxcnt.toNat = bytes.length ∧
    (rxCommit (some bytes) s).rxbuf = commitBytes bytes s.rxbuf) ∧
  (∀ (ok : Bool) (n cnt : Nat),
    rxResult ok n cnt = if ok = false then .busFail else if n < cnt then .short else .ok)

/-- R132: when an identity check matches. -/
def Obligations.IdentityCheckMatches : Prop :=
  ∀ (a : Answer) (v : Byte), idMatch a v = true ↔ a.ok = true ∧ a.bytes = [v]

/-- R131: DETECT. When a check matches is `IdentityCheckMatches`. That the BUS_OPEN check is a step of its own
is log 6. -/
def Obligations.DetectSteps : Prop :=
  ∀ (c : Config) (s : State) (as : List Answer) (a m : Answer), c = Config.params.cfg →
    (Runs .detect .start as s →
      exec .detect s = .next { s with
        seq := some { cmd := .detect, pos := if s.busOpen then .prim 1 else .prim 0, answers := as } }) ∧
    (Runs .detect (.prim 0) as s →
      exec .detect s = .next { s with
        busOpen := true, log := s.log ++ [.evOpen]
        seq := some { cmd := .detect, pos := .prim 1, answers := as } }) ∧
    (Runs .detect (.prim 1) as s →
      exec .detect s = .next { s with
        log := s.log ++ [.evDelay c.tSettle]
        seq := some { cmd := .detect, pos := .prim 2, answers := as } }) ∧
    (Runs .detect (.prim 2) as s → s.answer = some a → a.bytes.length ≤ 1 →
      exec .detect s = .next { s with
        log := s.log ++ [.evRead c.addrAg c.idAgReg 1 a.ok a.bytes]
        seq := some { cmd := .detect, pos := .prim 3, answers := as ++ [a] } }) ∧
    (Runs .detect (.prim 3) as s → s.answer = some m → m.bytes.length ≤ 1 →
      exec .detect s = .next { s with
        log := s.log ++ [.evRead c.addrM c.idMReg 1 m.ok m.bytes]
        seq := some { cmd := .detect, pos := .prim 4, answers := as ++ [m] } }) ∧
    (Runs .detect (.prim 4) [a, m] s →
      exec .detect s = .next { s with
        idmAg := idMatch a c.idAgVal, idmM := idMatch m c.idMVal
        verified := s.verified || (idMatch a c.idAgVal && idMatch m c.idMVal)
        err := if idMatch a c.idAgVal && idMatch m c.idMVal then .ok else .absent
        busy := false, seq := none })

/-- R140, R141: ENABLE. -/
def Obligations.EnableSteps : Prop :=
  ∀ (c : Config) (s : State) (as : List Answer) (k : Nat) (e : EnableEntry) (a : Answer),
    c = Config.params.cfg →
    (Runs .enable .start as s →
      exec .enable s = .next { s with
        seq := some {
          cmd := .enable, answers := as, pos := if s.verified then .prim 0 else .exit .notVerified } }) ∧
    (Runs .enable (.exit .notVerified) as s →
      exec .enable s = .next { s with err := .notVerified, busy := false, seq := none }) ∧
    (Runs .enable (.prim k) as s → c.enableSeq[k]? = some e → s.answer = some a →
      exec .enable s = .next { s with
        log := s.log ++ [.evWrite (c.addrOf e.sub) e.ra e.val a.ok]
        seq := some { cmd := .enable, pos := .prim (k + 1), answers := as ++ [{ ok := a.ok, bytes := [] }] } }) ∧
    (Runs .enable (.prim c.enableSeq.length) as s →
      exec .enable s = .next { s with
        err := if as.all (·.ok) then .ok else .busFail, busy := false, seq := none })

/-- R150 to R153: RDACC, RDGYR and RDMAG. -/
def Obligations.AxisReadSteps : Prop :=
  ∀ (i : Instr) (dev : DevAddr) (rb : Byte) (s : State) (as : List Answer) (a : Answer),
    (i, dev, rb) ∈ [(Instr.rdacc, Config.params.cfg.addrAg, Config.params.cfg.accDataReg),
      (Instr.rdgyr, Config.params.cfg.addrAg, Config.params.cfg.gyrDataReg),
      (Instr.rdmag, Config.params.cfg.addrM, Config.params.cfg.magDataReg ||| 0x80)] →
    (Runs i .start as s →
      exec i s = .next { s with
        seq := some { cmd := i, answers := as, pos := if s.verified then .prim 0 else .exit .notVerified } }) ∧
    (Runs i (.exit .notVerified) as s →
      exec i s = .next { s with err := .notVerified, busy := false, seq := none }) ∧
    (Runs i (.prim 0) as s → s.answer = some a → a.bytes.length ≤ 6 →
      exec i s = .next { s with
        log := s.log ++ [.evRead dev rb 6 a.ok a.bytes]
        seq := some { cmd := i, pos := .prim 1, answers := as ++ [a] } }) ∧
    (Runs i (.prim 1) [a] s →
      exec i s = .next { s with
        rxbuf := commitBytes a.bytes s.rxbuf, rxcnt := BitVec.ofNat 8 a.bytes.length
        err := if a.ok = false then .busFail else if a.bytes.length < 6 then .short else .ok
        busy := false, seq := none })

/-- R62, R177: a transaction the platform has not answered leaves the whole state as it is. -/
def Obligations.UnansweredTransactionWaits : Prop :=
  ∀ (s : State) (q : Sequencer), s.busy = true → s.seq = some q → s.answer = none →
    awaitsAnswer Config.params.cfg s = true → exec q.cmd s = .next s

/-! ### Whole commands, from the CMD write to BUSY = 0 -/

/-- R101, R85, R171: a whole OPEN, on a closed and on an open bus. That its BUS_OPEN check is a step of its
own is the model's reading of R85 (log 6). -/
def Obligations.OpenRunOpensTheBus : Prop :=
  ∀ (s : State) (a b d : Option Answer) (ops : List HostOp) (ts : List Turn),
    s.busy = false → s.program = submitOp .openBus :: ops →
    (s.busOpen = false →
      s.turns = .host :: .controller a :: .controller b :: .controller d :: ts →
      runFor 4 s = .next { s with
        seq := none, busOpen := true, ovr := false, lastOp := 1, err := .ok
        log := s.log ++ [.evOpen], program := ops, turns := ts, answer := d }) ∧
    (s.busOpen = true → s.turns = .host :: .controller a :: .controller b :: ts →
      runFor 3 s = .next { s with
        seq := none, ovr := false, lastOp := 1, err := .ok
        program := ops, turns := ts, answer := b })

/-- R102: a whole WRITE on an open bus. -/
def Obligations.WriteRunWritesOneRegister : Prop :=
  ∀ (dev : DevAddr) (ra val : Byte) (s : State) (x y : Option Answer) (a : Answer) (ops : List HostOp)
    (ts : List Turn),
    s.busy = false → s.busOpen = true → s.program = submitOp (.write dev ra val) :: ops →
    s.turns = .host :: .controller x :: .controller (some a) :: .controller y :: ts →
    runFor 4 s = .next { s with
      seq := none, ovr := false, lastOp := 2, err := if a.ok then .ok else .busFail
      log := s.log ++ [.evWrite dev ra val a.ok], program := ops, turns := ts, answer := y }

/-- R103, R104: a whole READ on an open bus. -/
def Obligations.ReadRunReceivesBytes : Prop :=
  ∀ (dev : DevAddr) (ra cnt : Byte) (s : State) (x y : Option Answer) (a : Answer) (ops : List HostOp)
    (ts : List Turn),
    1 ≤ cnt.toNat → cnt.toNat ≤ 6 → a.bytes.length ≤ cnt.toNat →
    s.busy = false → s.busOpen = true → s.program = submitOp (.read dev ra cnt) :: ops →
    s.turns = .host :: .controller x :: .controller (some a) :: .controller y :: ts →
    runFor 4 s = .next { s with
      seq := none, ovr := false, lastOp := 3, err := rxResult a.ok a.bytes.length cnt.toNat
      rxbuf := commitBytes a.bytes s.rxbuf, rxcnt := BitVec.ofNat 8 a.bytes.length
      log := s.log ++ [.evRead dev ra cnt.toNat a.ok a.bytes], program := ops, turns := ts, answer := y }

/-- R100: WRITE and READ on a closed bus complete with BUS_CLOSED and run no bus primitive. -/
def Obligations.ClosedBusRunsNoTransaction : Prop :=
  ∀ (i : Instr) (s : State) (x y : Option Answer) (ops : List HostOp) (ts : List Turn),
    i.wf = true → (opCode i = 2 ∨ opCode i = 3) →
    s.busy = false → s.busOpen = false → s.program = submitOp i :: ops →
    s.turns = .host :: .controller x :: .controller y :: ts →
    runFor 3 s = .next { s with
      seq := none, ovr := false, lastOp := opCode i, err := .busClosed
      program := ops, turns := ts, answer := y }

/-- R131, R161 (c), R85: a whole DETECT, on a closed and on an open bus. That its BUS_OPEN check is a step of
its own is the model's reading of R85 (log 6). -/
def Obligations.DetectRunChecksBothIdentities : Prop :=
  ∀ (c : Config) (s : State) (x y z v : Option Answer) (a m : Answer) (ops : List HostOp) (ts : List Turn),
    c = Config.params.cfg → a.bytes.length ≤ 1 → m.bytes.length ≤ 1 →
    s.busy = false → s.program = submitOp .detect :: ops →
    (s.busOpen = false →
      s.turns = .host :: .controller x :: .controller y :: .controller z :: .controller (some a) ::
        .controller (some m) :: .controller v :: ts →
      runFor 7 s = .next { s with
        seq := none, busOpen := true, ovr := false, lastOp := 4
        idmAg := idMatch a c.idAgVal, idmM := idMatch m c.idMVal
        verified := s.verified || (idMatch a c.idAgVal && idMatch m c.idMVal)
        err := if idMatch a c.idAgVal && idMatch m c.idMVal then .ok else .absent
        log := s.log ++ [.evOpen, .evDelay c.tSettle, .evRead c.addrAg c.idAgReg 1 a.ok a.bytes,
          .evRead c.addrM c.idMReg 1 m.ok m.bytes]
        program := ops, turns := ts, answer := v }) ∧
    (s.busOpen = true →
      s.turns = .host :: .controller x :: .controller z :: .controller (some a) ::
        .controller (some m) :: .controller v :: ts →
      runFor 6 s = .next { s with
        seq := none, ovr := false, lastOp := 4
        idmAg := idMatch a c.idAgVal, idmM := idMatch m c.idMVal
        verified := s.verified || (idMatch a c.idAgVal && idMatch m c.idMVal)
        err := if idMatch a c.idAgVal && idMatch m c.idMVal then .ok else .absent
        log := s.log ++ [.evDelay c.tSettle, .evRead c.addrAg c.idAgReg 1 a.ok a.bytes,
          .evRead c.addrM c.idMReg 1 m.ok m.bytes]
        program := ops, turns := ts, answer := v })

/-- R140, R161 (d): a whole ENABLE on a Verified block makes every write of `ENABLE_SEQ` in list order,
whatever the answers, and reports BUS_FAIL exactly when one failed. -/
def Obligations.EnableRunWritesTheSequence : Prop :=
  ∀ (c : Config) (s : State) (x y : Option Answer) (as : List Answer) (ops : List HostOp) (ts : List Turn),
    c = Config.params.cfg → as.length = c.enableSeq.length →
    s.busy = false → s.verified = true → s.program = submitOp .enable :: ops →
    s.turns = .host :: .controller x :: (as.map (fun a => Turn.controller (some a)) ++ .controller y :: ts) →
    runFor (c.enableSeq.length + 3) s = .next { s with
      seq := none, ovr := false, lastOp := 5, err := if as.all (·.ok) then .ok else .busFail
      log := s.log ++ List.zipWith (writeEvent c) c.enableSeq as
      program := ops, turns := ts, answer := y }

/-- R150 to R153, R161 (b): a whole axis read on a Verified block logs one read of 6 bytes and commits what
came. -/
def Obligations.AxisRunReadsOneSample : Prop :=
  ∀ (i : Instr) (dev : DevAddr) (rb : Byte) (s : State) (x y : Option Answer) (a : Answer)
    (ops : List HostOp) (ts : List Turn),
    (i, dev, rb) ∈ axisReads Config.params.cfg → a.bytes.length ≤ 6 →
    s.busy = false → s.verified = true → s.program = submitOp i :: ops →
    s.turns = .host :: .controller x :: .controller (some a) :: .controller y :: ts →
    runFor 4 s = .next { s with
      seq := none, ovr := false, lastOp := opCode i, err := rxResult a.ok a.bytes.length 6
      rxbuf := commitBytes a.bytes s.rxbuf, rxcnt := BitVec.ofNat 8 a.bytes.length
      log := s.log ++ [.evRead dev rb 6 a.ok a.bytes], program := ops, turns := ts, answer := y }

/-- R161 (a): on an Unverified block ENABLE and the axis reads log nothing and leave RXCNT and `rxbuf`;
only NOT_VERIFIED and the acceptance fields are written. -/
def Obligations.UnverifiedGuardRunsNothing : Prop :=
  ∀ (i : Instr) (s : State) (x y : Option Answer) (ops : List HostOp) (ts : List Turn),
    i ∈ [Instr.enable, Instr.rdacc, Instr.rdgyr, Instr.rdmag] →
    s.busy = false → s.verified = false → s.program = submitOp i :: ops →
    s.turns = .host :: .controller x :: .controller y :: ts →
    runFor 3 s = .next { s with
      seq := none, ovr := false, lastOp := opCode i, err := .notVerified
      program := ops, turns := ts, answer := y }

/-! ### Frames -/

/-- R36: what no step of a command writes, and which commands can write each field. -/
def Obligations.CommandsWriteOnlyTheirFields : Prop :=
  ∀ (i : Instr) (s t : State), exec i s = .next t →
    (t.program = s.program ∧ t.hostReads = s.hostReads ∧ t.turns = s.turns ∧ t.tick = s.tick ∧
      t.answer = s.answer) ∧
    (s.busy = true → t.lastOp = s.lastOp) ∧
    (s.busy = true → (∃ q, s.seq = some q ∧ q.cmd = i) → t.ovr = s.ovr) ∧
    (receives i = false → t.rxcnt = s.rxcnt ∧ t.rxbuf = s.rxbuf) ∧
    (i ≠ .detect → t.idmAg = s.idmAg ∧ t.idmM = s.idmM ∧ t.verified = s.verified) ∧
    (i ≠ .detect → i ≠ .openBus → t.busOpen = s.busOpen) ∧
    (s.busy = false → t.log = s.log ∧ t.busOpen = s.busOpen ∧ t.verified = s.verified ∧
      (i.wf = true → t.err = s.err) ∧ t.rxcnt = s.rxcnt ∧ t.rxbuf = s.rxbuf ∧ t.idmAg = s.idmAg ∧
      t.idmM = s.idmM)

/-- R211: until BUSY falls, the results of a command still show the values before it. -/
def Obligations.ResultsStayUntilCompletion : Prop :=
  ∀ (s t : State), s.turnNow ≠ .reset → s.busy = true → step s = .next t → t.busy = true →
    t.err = s.err ∧ t.rxcnt = s.rxcnt ∧ t.rxbuf = s.rxbuf ∧ t.verified = s.verified ∧
    t.idmAg = s.idmAg ∧ t.idmM = s.idmM

/-- R54: only a write to CMD has an effect on the block; any other step of the host leaves all of it, and
every register reads as before. -/
def Obligations.HostTouchesTheBlockOnlyByCmd : Prop :=
  ∀ (s t : State), s.turnNow = .host → step s = .next t →
    (∀ size v ops, s.program ≠ .write size 0 v :: ops) →
    SameBlock t s ∧ ∀ off, t.hostRegister off = s.hostRegister off

/-- R26: OVR is set by a CMD write while BUSY, cleared by one while idle, and nothing else changes it but
reset. -/
def Obligations.OverrunFlag : Prop :=
  ∀ (s t : State), step s = .next t → s.turnNow ≠ .reset →
    (t.ovr = s.ovr ∨
      ∃ w ops, s.turnNow = .host ∧ s.program = .write 4 0 w :: ops ∧ t.ovr = s.busy) ∧
    (∀ w ops, s.turnNow = .host → s.program = .write 4 0 w :: ops → t.ovr = s.busy)

/-- R40, R63: the log only grows, by at most one event a step. -/
def Obligations.LogGrowsByOneEventAtMost : Prop :=
  ∀ (s t : State), s.turnNow ≠ .reset → step s = .next t → t.log = s.log ∨ ∃ e, t.log = s.log ++ [e]

/-- R105: the transport commands do not read VERIFIED: their step is the same on an Unverified block. -/
def Obligations.TransportIgnoresVerified : Prop :=
  ∀ (i : Instr) (s t : State) (v : Bool), isTransport i = true → exec i s = .next t →
    exec i { s with verified := v } = .next { t with verified := v }

/-- R142: ENABLE never inspects the roles of `ENABLE_SEQ`, under any configuration. -/
def Obligations.EnableIgnoresRoles : Prop :=
  ∀ (c : Config) (s : State), enableStep (withoutRoles c) s = enableStep c s

/-! ### Invariants and whole-machine rules -/

/-- The invariant holds at reset. -/
def Obligations.ResetMeetsTheInvariant : Prop := BlockInv State.reset

/-- R37 and what the rules add to it: every step keeps the invariant. -/
def Obligations.EveryStepKeepsTheInvariant : Prop :=
  ∀ (s t : State), BlockInv s → step s = .next t → BlockInv t

/-- R37 (a) to (e), read off the invariant and the host's words. -/
def Obligations.ReachableStateInvariants : Prop :=
  ∀ s : State, BlockInv s →
    (s.verified = true → s.busOpen = true) ∧ (s.busy = false ↔ s.seq = none) ∧ s.rxcnt.toNat ≤ 6 ∧
    (s.status.extractLsb' 10 6 = 0 ∧ s.status.extractLsb' 20 12 = 0 ∧
      (s.hostRegister 0x08).extractLsb' 8 24 = 0 ∧ (s.hostRegister 0x10).extractLsb' 16 16 = 0) ∧
    (s.status.extractLsb' 4 4).toNat ≤ 6

/-- R170, R52: from a state of the invariant the machine never stops, if the host's accesses are
supported. -/
def Obligations.SupportedHostNeverStops : Prop :=
  ∀ s : State, BlockInv s → programSupported s = true →
    ∃ t, step s = .next t ∧ BlockInv t ∧ programSupported t = true

/-- R133: once VERIFIED is 1, no step but reset makes it 0; a DETECT leaves it at its old value or at 1 if
both checks match. -/
def Obligations.DetectionIsMonotonic : Prop :=
  (∀ (s t : State), s.turnNow ≠ .reset → step s = .next t → s.verified = true → t.verified = true) ∧
  (∀ (s t : State) (a m : Answer), Runs .detect (.prim 4) [a, m] s → exec .detect s = .next t →
    t.verified =
      (s.verified || (idMatch a Config.params.cfg.idAgVal && idMatch m Config.params.cfg.idMVal)))

/-- R27, R130: Unverified is the initial state, and the only change but by reset is to Verified, at the
completion of a DETECT both of whose identity reads matched. -/
def Obligations.OnlyMatchingDetectVerifies : Prop :=
  State.reset.verified = false ∧
  ∀ (s t : State), s.turnNow ≠ .reset → step s = .next t → t.verified ≠ s.verified →
    t.verified = true ∧
    ∃ a m, Runs .detect (.prim 4) [a, m] s ∧ (∃ x, s.turnNow = .controller x) ∧
      a.ok = true ∧ a.bytes = [Config.params.cfg.idAgVal] ∧
      m.ok = true ∧ m.bytes = [Config.params.cfg.idMVal]

/-- R25, R101, R131: BUS_OPEN changes only by reset or at the BusOpen step of OPEN or DETECT, which sets
it, logs EvOpen and leaves BUSY at 1. -/
def Obligations.BusOpenChangesOnlyAtBusOpen : Prop :=
  ∀ (s t : State), s.turnNow ≠ .reset → step s = .next t → t.busOpen ≠ s.busOpen →
    t.busOpen = true ∧ t.busy = true ∧ t.log = s.log ++ [.evOpen] ∧
    ∃ q, s.seq = some q ∧ (q.cmd = .openBus ∨ q.cmd = .detect)

/-- R173: a command completes with one of its own codes. -/
def Obligations.CommandsCompleteWithTheirCodes : Prop :=
  ∀ (s t : State) (q : Sequencer), BlockInv s → s.seq = some q → exec q.cmd s = .next t → t.busy = false →
    t.err ∈ codesOf q.cmd

/-- R35: the sequencer steps forward through one command's procedure and never branches backwards. -/
def Obligations.SequencerNeverGoesBack : Prop :=
  ∀ (s t : State) (q q' : Sequencer), s.busy = true → s.seq = some q → exec q.cmd s = .next t →
    t.seq = some q' →
    q'.cmd = q.cmd ∧ (q.pos = q'.pos ∧ s = t ∨
      posRank (procedure Config.params.cfg q.cmd).length q.pos <
        posRank (procedure Config.params.cfg q.cmd).length q'.pos)

/-- R177 with `BUS_TIMEOUT` as its premise, over schedules in which the host may act between any two controller
steps (R70): if the host's accesses are supported and no more than `bound` controller turns in a row go
unanswered, a running command completes, with one of its own codes, within `bound + 1` controller turns for
each step it has left. A reset turn ends a command otherwise (R201) and is not among the turns. -/
def Obligations.AnsweredCommandsComplete : Prop :=
  ∀ (s : State) (q : Sequencer) (bound : Nat) (ts rest : List Turn),
    BlockInv s → programSupported s = true → s.busy = true → s.seq = some q →
    (∀ t ∈ ts, t ≠ .reset) → timeoutMet bound 0 ts = true →
    stepsLeft Config.params.cfg s * (bound + 1) ≤ controllerTurns ts → s.turns = ts ++ rest →
    ∃ n t, n ≤ ts.length ∧ runFor n s = .next t ∧ t.busy = false ∧ t.err ∈ codesOf q.cmd ∧
      BlockInv t ∧ programSupported t = true

/-- R177: a transaction that is never answered leaves the command running for ever: after any number of
unanswered turns the block is as it was, BUSY included. -/
def Obligations.UnansweredCommandHangs : Prop :=
  ∀ (n : Nat) (s : State) (ts : List Turn), s.busy = true →
    awaitsAnswer Config.params.cfg s = true → s.turns = List.replicate n (.controller none) ++ ts →
    ∃ t, runFor n s = .next t ∧ SameBlock t s ∧ t.turns = ts

/-! ### Configuration and the host's reading -/

/-- R143: what makes `ENABLE_SEQ` well formed, by the indices of its entries; a configuration whose sequence
is not well formed is refused. -/
def Obligations.EnableSequenceWellFormed : Prop :=
  (∀ seq : List EnableEntry, enableSeqWf seq = true ↔
    (∃ e ∈ seq, e.sub = .ag) ∧ (∃ e ∈ seq, e.sub = .m) ∧
    (∀ (d : SubDevice) (b : Nat) (eb : EnableEntry), seq[b]? = some eb → eb.sub = d → .bdu ∈ eb.roles →
      (∀ (j : Nat) (e : EnableEntry), j < b → seq[j]? = some e → e.sub = d → .bdu ∉ e.roles) →
      ∀ (k : Nat) (e : EnableEntry), seq[k]? = some e → e.sub = d → .start ∈ e.roles → b ≤ k)) ∧
  (∀ c : Config, enableSeqWf c.enableSeq = false → Config.checked c = none)

/-- R9, R143: the block's configuration is a well-formed one with two distinct device addresses. -/
def Obligations.ParametersAreWellFormed : Prop :=
  Config.params.cfg.addrAg ≠ Config.params.cfg.addrM ∧ enableSeqWf Config.params.cfg.enableSeq = true ∧
  (∀ c : Config, (Config.checked c).isSome = true ↔ c.addrAg ≠ c.addrM ∧ enableSeqWf c.enableSeq = true)

/-- R153: the magnetometer's register byte is its base with bit 7 set, and nothing else is changed. -/
def Obligations.MagnetometerBitIsSet : Prop :=
  ∀ (c : Config) (k : Nat), (magRegByte c).getLsbD k = (decide (k = 7) || c.magDataReg.getLsbD k)

/-- R160: the host's reading of a sample as three signed little-endian values (two's complement is general
knowledge, log 13), and what a valid value and a valid sample need. -/
def Obligations.SampleValues : Prop :=
  ∀ s : State,
    s.sampleX = s.rxbuf[0].toNat + 256 * s.rxbuf[1].toNat - (if 0x80 ≤ s.rxbuf[1].toNat then 65536 else 0) ∧
    s.sampleY = s.rxbuf[2].toNat + 256 * s.rxbuf[3].toNat - (if 0x80 ≤ s.rxbuf[3].toNat then 65536 else 0) ∧
    s.sampleZ = s.rxbuf[4].toNat + 256 * s.rxbuf[5].toNat - (if 0x80 ≤ s.rxbuf[5].toNat then 65536 else 0) ∧
    (∀ lo, s.valueValid (lo + 1) = true → lo < s.rxcnt.toNat ∧ lo + 1 < s.rxcnt.toNat) ∧
    (s.sampleValid = true → s.err = .ok ∧ s.rxcnt = 6)

/-- R88: the assembler takes exactly the commands whose operands are in range. -/
def Obligations.AssemblerRefusesOutOfRange : Prop :=
  ∀ dev ra val : Nat,
    ((assembleCommand "WRITE" [dev, ra, val]).isSome = true ↔ dev < 0x80 ∧ ra < 0x100 ∧ val < 0x100) ∧
    ((assembleCommand "READ" [dev, ra, val]).isSome = true ↔
      dev < 0x80 ∧ ra < 0x100 ∧ 1 ≤ val ∧ val ≤ 6) ∧
    (∀ (m : String) (operands : List Nat) (i : Instr), assembleCommand m operands = some i →
      i.wf = true ∧ i.mnemonic = m)
end

