-- ==== Sys2Proof/Laws/State.lean ====
section
/-! SUPPORT. Each field after each update of the state, one lemma a field, so that no proof unfolds a record
update. -/

namespace Sys2Proof.Machine

/-! ### dropSubmission -/

@[simp] theorem dropSubmission_busy (s : State) : (dropSubmission s).busy = s.busy := rfl
@[simp] theorem dropSubmission_verified (s : State) : (dropSubmission s).verified = s.verified := rfl
@[simp] theorem dropSubmission_busOpen (s : State) : (dropSubmission s).busOpen = s.busOpen := rfl
@[simp] theorem dropSubmission_ovr (s : State) : (dropSubmission s).ovr = true := rfl
@[simp] theorem dropSubmission_err (s : State) : (dropSubmission s).err = s.err := rfl
@[simp] theorem dropSubmission_idmAg (s : State) : (dropSubmission s).idmAg = s.idmAg := rfl
@[simp] theorem dropSubmission_idmM (s : State) : (dropSubmission s).idmM = s.idmM := rfl
@[simp] theorem dropSubmission_lastOp (s : State) : (dropSubmission s).lastOp = s.lastOp := rfl
@[simp] theorem dropSubmission_rxcnt (s : State) : (dropSubmission s).rxcnt = s.rxcnt := rfl
@[simp] theorem dropSubmission_rxbuf (s : State) : (dropSubmission s).rxbuf = s.rxbuf := rfl
@[simp] theorem dropSubmission_seq (s : State) : (dropSubmission s).seq = s.seq := rfl
@[simp] theorem dropSubmission_log (s : State) : (dropSubmission s).log = s.log := rfl
@[simp] theorem dropSubmission_program (s : State) : (dropSubmission s).program = s.program := rfl
@[simp] theorem dropSubmission_hostReads (s : State) : (dropSubmission s).hostReads = s.hostReads := rfl
@[simp] theorem dropSubmission_turns (s : State) : (dropSubmission s).turns = s.turns := rfl
@[simp] theorem dropSubmission_tick (s : State) : (dropSubmission s).tick = s.tick := rfl
@[simp] theorem dropSubmission_answer (s : State) : (dropSubmission s).answer = s.answer := rfl

/-! ### reject -/

@[simp] theorem reject_busy (w : Word) (s : State) : (reject w s).busy = s.busy := rfl
@[simp] theorem reject_verified (w : Word) (s : State) : (reject w s).verified = s.verified := rfl
@[simp] theorem reject_busOpen (w : Word) (s : State) : (reject w s).busOpen = s.busOpen := rfl
@[simp] theorem reject_ovr (w : Word) (s : State) : (reject w s).ovr = false := rfl
@[simp] theorem reject_err (w : Word) (s : State) : (reject w s).err = .illegal := rfl
@[simp] theorem reject_idmAg (w : Word) (s : State) : (reject w s).idmAg = s.idmAg := rfl
@[simp] theorem reject_idmM (w : Word) (s : State) : (reject w s).idmM = s.idmM := rfl
@[simp] theorem reject_lastOp (w : Word) (s : State) : (reject w s).lastOp = opField w := rfl
@[simp] theorem reject_rxcnt (w : Word) (s : State) : (reject w s).rxcnt = s.rxcnt := rfl
@[simp] theorem reject_rxbuf (w : Word) (s : State) : (reject w s).rxbuf = s.rxbuf := rfl
@[simp] theorem reject_seq (w : Word) (s : State) : (reject w s).seq = s.seq := rfl
@[simp] theorem reject_log (w : Word) (s : State) : (reject w s).log = s.log := rfl
@[simp] theorem reject_program (w : Word) (s : State) : (reject w s).program = s.program := rfl
@[simp] theorem reject_hostReads (w : Word) (s : State) : (reject w s).hostReads = s.hostReads := rfl
@[simp] theorem reject_turns (w : Word) (s : State) : (reject w s).turns = s.turns := rfl
@[simp] theorem reject_tick (w : Word) (s : State) : (reject w s).tick = s.tick := rfl
@[simp] theorem reject_answer (w : Word) (s : State) : (reject w s).answer = s.answer := rfl

/-! ### accept -/

@[simp] theorem accept_busy (i : Instr) (s : State) : (accept i s).busy = true := rfl
@[simp] theorem accept_verified (i : Instr) (s : State) : (accept i s).verified = s.verified := rfl
@[simp] theorem accept_busOpen (i : Instr) (s : State) : (accept i s).busOpen = s.busOpen := rfl
@[simp] theorem accept_ovr (i : Instr) (s : State) : (accept i s).ovr = false := rfl
@[simp] theorem accept_err (i : Instr) (s : State) : (accept i s).err = s.err := rfl
@[simp] theorem accept_idmAg (i : Instr) (s : State) : (accept i s).idmAg = s.idmAg := rfl
@[simp] theorem accept_idmM (i : Instr) (s : State) : (accept i s).idmM = s.idmM := rfl
@[simp] theorem accept_lastOp (i : Instr) (s : State) : (accept i s).lastOp = opCode i := rfl
@[simp] theorem accept_rxcnt (i : Instr) (s : State) : (accept i s).rxcnt = s.rxcnt := rfl
@[simp] theorem accept_rxbuf (i : Instr) (s : State) : (accept i s).rxbuf = s.rxbuf := rfl
@[simp] theorem accept_seq (i : Instr) (s : State) :
    (accept i s).seq = some { cmd := i, pos := .start, answers := [] } := rfl
@[simp] theorem accept_log (i : Instr) (s : State) : (accept i s).log = s.log := rfl
@[simp] theorem accept_program (i : Instr) (s : State) : (accept i s).program = s.program := rfl
@[simp] theorem accept_hostReads (i : Instr) (s : State) : (accept i s).hostReads = s.hostReads := rfl
@[simp] theorem accept_turns (i : Instr) (s : State) : (accept i s).turns = s.turns := rfl
@[simp] theorem accept_tick (i : Instr) (s : State) : (accept i s).tick = s.tick := rfl
@[simp] theorem accept_answer (i : Instr) (s : State) : (accept i s).answer = s.answer := rfl

/-! ### State.logEvent -/

@[simp] theorem State.logEvent_busy (s : State) (e : Event) : (s.logEvent e).busy = s.busy := rfl
@[simp] theorem State.logEvent_verified (s : State) (e : Event) :
    (s.logEvent e).verified = s.verified := rfl
@[simp] theorem State.logEvent_busOpen (s : State) (e : Event) : (s.logEvent e).busOpen = s.busOpen := rfl
@[simp] theorem State.logEvent_ovr (s : State) (e : Event) : (s.logEvent e).ovr = s.ovr := rfl
@[simp] theorem State.logEvent_err (s : State) (e : Event) : (s.logEvent e).err = s.err := rfl
@[simp] theorem State.logEvent_idmAg (s : State) (e : Event) : (s.logEvent e).idmAg = s.idmAg := rfl
@[simp] theorem State.logEvent_idmM (s : State) (e : Event) : (s.logEvent e).idmM = s.idmM := rfl
@[simp] theorem State.logEvent_lastOp (s : State) (e : Event) : (s.logEvent e).lastOp = s.lastOp := rfl
@[simp] theorem State.logEvent_rxcnt (s : State) (e : Event) : (s.logEvent e).rxcnt = s.rxcnt := rfl
@[simp] theorem State.logEvent_rxbuf (s : State) (e : Event) : (s.logEvent e).rxbuf = s.rxbuf := rfl
@[simp] theorem State.logEvent_seq (s : State) (e : Event) : (s.logEvent e).seq = s.seq := rfl
@[simp] theorem State.logEvent_log (s : State) (e : Event) : (s.logEvent e).log = s.log ++ [e] := rfl
@[simp] theorem State.logEvent_program (s : State) (e : Event) : (s.logEvent e).program = s.program := rfl
@[simp] theorem State.logEvent_hostReads (s : State) (e : Event) :
    (s.logEvent e).hostReads = s.hostReads := rfl
@[simp] theorem State.logEvent_turns (s : State) (e : Event) : (s.logEvent e).turns = s.turns := rfl
@[simp] theorem State.logEvent_tick (s : State) (e : Event) : (s.logEvent e).tick = s.tick := rfl
@[simp] theorem State.logEvent_answer (s : State) (e : Event) : (s.logEvent e).answer = s.answer := rfl

/-! ### State.goto -/

@[simp] theorem State.goto_busy (s : State) (q : Sequencer) (p : Pos) : (s.goto q p).busy = s.busy := rfl
@[simp] theorem State.goto_verified (s : State) (q : Sequencer) (p : Pos) :
    (s.goto q p).verified = s.verified := rfl
@[simp] theorem State.goto_busOpen (s : State) (q : Sequencer) (p : Pos) : (s.goto q p).busOpen = s.busOpen := rfl
@[simp] theorem State.goto_ovr (s : State) (q : Sequencer) (p : Pos) : (s.goto q p).ovr = s.ovr := rfl
@[simp] theorem State.goto_err (s : State) (q : Sequencer) (p : Pos) : (s.goto q p).err = s.err := rfl
@[simp] theorem State.goto_idmAg (s : State) (q : Sequencer) (p : Pos) : (s.goto q p).idmAg = s.idmAg := rfl
@[simp] theorem State.goto_idmM (s : State) (q : Sequencer) (p : Pos) : (s.goto q p).idmM = s.idmM := rfl
@[simp] theorem State.goto_lastOp (s : State) (q : Sequencer) (p : Pos) : (s.goto q p).lastOp = s.lastOp := rfl
@[simp] theorem State.goto_rxcnt (s : State) (q : Sequencer) (p : Pos) : (s.goto q p).rxcnt = s.rxcnt := rfl
@[simp] theorem State.goto_rxbuf (s : State) (q : Sequencer) (p : Pos) : (s.goto q p).rxbuf = s.rxbuf := rfl
@[simp] theorem State.goto_seq (s : State) (q : Sequencer) (p : Pos) :
    (s.goto q p).seq = some { q with pos := p } := rfl
@[simp] theorem State.goto_log (s : State) (q : Sequencer) (p : Pos) : (s.goto q p).log = s.log := rfl
@[simp] theorem State.goto_program (s : State) (q : Sequencer) (p : Pos) : (s.goto q p).program = s.program := rfl
@[simp] theorem State.goto_hostReads (s : State) (q : Sequencer) (p : Pos) :
    (s.goto q p).hostReads = s.hostReads := rfl
@[simp] theorem State.goto_turns (s : State) (q : Sequencer) (p : Pos) : (s.goto q p).turns = s.turns := rfl
@[simp] theorem State.goto_tick (s : State) (q : Sequencer) (p : Pos) : (s.goto q p).tick = s.tick := rfl
@[simp] theorem State.goto_answer (s : State) (q : Sequencer) (p : Pos) : (s.goto q p).answer = s.answer := rfl

/-! ### State.keepAnswer -/

@[simp] theorem State.keepAnswer_busy (s : State) (q : Sequencer) (k : Nat) (a : Answer) :
    (s.keepAnswer q k a).busy = s.busy := rfl
@[simp] theorem State.keepAnswer_verified (s : State) (q : Sequencer) (k : Nat) (a : Answer) :
    (s.keepAnswer q k a).verified = s.verified := rfl
@[simp] theorem State.keepAnswer_busOpen (s : State) (q : Sequencer) (k : Nat) (a : Answer) :
    (s.keepAnswer q k a).busOpen = s.busOpen := rfl
@[simp] theorem State.keepAnswer_ovr (s : State) (q : Sequencer) (k : Nat) (a : Answer) :
    (s.keepAnswer q k a).ovr = s.ovr := rfl
@[simp] theorem State.keepAnswer_err (s : State) (q : Sequencer) (k : Nat) (a : Answer) :
    (s.keepAnswer q k a).err = s.err := rfl
@[simp] theorem State.keepAnswer_idmAg (s : State) (q : Sequencer) (k : Nat) (a : Answer) :
    (s.keepAnswer q k a).idmAg = s.idmAg := rfl
@[simp] theorem State.keepAnswer_idmM (s : State) (q : Sequencer) (k : Nat) (a : Answer) :
    (s.keepAnswer q k a).idmM = s.idmM := rfl
@[simp] theorem State.keepAnswer_lastOp (s : State) (q : Sequencer) (k : Nat) (a : Answer) :
    (s.keepAnswer q k a).lastOp = s.lastOp := rfl
@[simp] theorem State.keepAnswer_rxcnt (s : State) (q : Sequencer) (k : Nat) (a : Answer) :
    (s.keepAnswer q k a).rxcnt = s.rxcnt := rfl
@[simp] theorem State.keepAnswer_rxbuf (s : State) (q : Sequencer) (k : Nat) (a : Answer) :
    (s.keepAnswer q k a).rxbuf = s.rxbuf := rfl
@[simp] theorem State.keepAnswer_seq (s : State) (q : Sequencer) (k : Nat) (a : Answer) :
    (s.keepAnswer q k a).seq = some { q with pos := .prim k, answers := q.answers ++ [a] } := rfl
@[simp] theorem State.keepAnswer_log (s : State) (q : Sequencer) (k : Nat) (a : Answer) :
    (s.keepAnswer q k a).log = s.log := rfl
@[simp] theorem State.keepAnswer_program (s : State) (q : Sequencer) (k : Nat) (a : Answer) :
    (s.keepAnswer q k a).program = s.program := rfl
@[simp] theorem State.keepAnswer_hostReads (s : State) (q : Sequencer) (k : Nat) (a : Answer) :
    (s.keepAnswer q k a).hostReads = s.hostReads := rfl
@[simp] theorem State.keepAnswer_turns (s : State) (q : Sequencer) (k : Nat) (a : Answer) :
    (s.keepAnswer q k a).turns = s.turns := rfl
@[simp] theorem State.keepAnswer_tick (s : State) (q : Sequencer) (k : Nat) (a : Answer) :
    (s.keepAnswer q k a).tick = s.tick := rfl
@[simp] theorem State.keepAnswer_answer (s : State) (q : Sequencer) (k : Nat) (a : Answer) :
    (s.keepAnswer q k a).answer = s.answer := rfl

/-! ### State.openTheBus -/

@[simp] theorem State.openTheBus_busy (s : State) : (s.openTheBus).busy = s.busy := rfl
@[simp] theorem State.openTheBus_verified (s : State) : (s.openTheBus).verified = s.verified := rfl
@[simp] theorem State.openTheBus_busOpen (s : State) : (s.openTheBus).busOpen = true := rfl
@[simp] theorem State.openTheBus_ovr (s : State) : (s.openTheBus).ovr = s.ovr := rfl
@[simp] theorem State.openTheBus_err (s : State) : (s.openTheBus).err = s.err := rfl
@[simp] theorem State.openTheBus_idmAg (s : State) : (s.openTheBus).idmAg = s.idmAg := rfl
@[simp] theorem State.openTheBus_idmM (s : State) : (s.openTheBus).idmM = s.idmM := rfl
@[simp] theorem State.openTheBus_lastOp (s : State) : (s.openTheBus).lastOp = s.lastOp := rfl
@[simp] theorem State.openTheBus_rxcnt (s : State) : (s.openTheBus).rxcnt = s.rxcnt := rfl
@[simp] theorem State.openTheBus_rxbuf (s : State) : (s.openTheBus).rxbuf = s.rxbuf := rfl
@[simp] theorem State.openTheBus_seq (s : State) : (s.openTheBus).seq = s.seq := rfl
@[simp] theorem State.openTheBus_log (s : State) : (s.openTheBus).log = s.log := rfl
@[simp] theorem State.openTheBus_program (s : State) : (s.openTheBus).program = s.program := rfl
@[simp] theorem State.openTheBus_hostReads (s : State) : (s.openTheBus).hostReads = s.hostReads := rfl
@[simp] theorem State.openTheBus_turns (s : State) : (s.openTheBus).turns = s.turns := rfl
@[simp] theorem State.openTheBus_tick (s : State) : (s.openTheBus).tick = s.tick := rfl
@[simp] theorem State.openTheBus_answer (s : State) : (s.openTheBus).answer = s.answer := rfl

/-! ### State.hostSees -/

@[simp] theorem State.hostSees_busy (s : State) (v : Word) : (s.hostSees v).busy = s.busy := rfl
@[simp] theorem State.hostSees_verified (s : State) (v : Word) : (s.hostSees v).verified = s.verified := rfl
@[simp] theorem State.hostSees_busOpen (s : State) (v : Word) : (s.hostSees v).busOpen = s.busOpen := rfl
@[simp] theorem State.hostSees_ovr (s : State) (v : Word) : (s.hostSees v).ovr = s.ovr := rfl
@[simp] theorem State.hostSees_err (s : State) (v : Word) : (s.hostSees v).err = s.err := rfl
@[simp] theorem State.hostSees_idmAg (s : State) (v : Word) : (s.hostSees v).idmAg = s.idmAg := rfl
@[simp] theorem State.hostSees_idmM (s : State) (v : Word) : (s.hostSees v).idmM = s.idmM := rfl
@[simp] theorem State.hostSees_lastOp (s : State) (v : Word) : (s.hostSees v).lastOp = s.lastOp := rfl
@[simp] theorem State.hostSees_rxcnt (s : State) (v : Word) : (s.hostSees v).rxcnt = s.rxcnt := rfl
@[simp] theorem State.hostSees_rxbuf (s : State) (v : Word) : (s.hostSees v).rxbuf = s.rxbuf := rfl
@[simp] theorem State.hostSees_seq (s : State) (v : Word) : (s.hostSees v).seq = s.seq := rfl
@[simp] theorem State.hostSees_log (s : State) (v : Word) : (s.hostSees v).log = s.log := rfl
@[simp] theorem State.hostSees_program (s : State) (v : Word) : (s.hostSees v).program = s.program := rfl
@[simp] theorem State.hostSees_hostReads (s : State) (v : Word) :
    (s.hostSees v).hostReads = s.hostReads ++ [v] := rfl
@[simp] theorem State.hostSees_turns (s : State) (v : Word) : (s.hostSees v).turns = s.turns := rfl
@[simp] theorem State.hostSees_tick (s : State) (v : Word) : (s.hostSees v).tick = s.tick := rfl
@[simp] theorem State.hostSees_answer (s : State) (v : Word) : (s.hostSees v).answer = s.answer := rfl

/-! ### State.programRest -/

@[simp] theorem State.programRest_busy (s : State) (ops : List HostOp) :
    (s.programRest ops).busy = s.busy := rfl
@[simp] theorem State.programRest_verified (s : State) (ops : List HostOp) :
    (s.programRest ops).verified = s.verified := rfl
@[simp] theorem State.programRest_busOpen (s : State) (ops : List HostOp) :
    (s.programRest ops).busOpen = s.busOpen := rfl
@[simp] theorem State.programRest_ovr (s : State) (ops : List HostOp) :
    (s.programRest ops).ovr = s.ovr := rfl
@[simp] theorem State.programRest_err (s : State) (ops : List HostOp) :
    (s.programRest ops).err = s.err := rfl
@[simp] theorem State.programRest_idmAg (s : State) (ops : List HostOp) :
    (s.programRest ops).idmAg = s.idmAg := rfl
@[simp] theorem State.programRest_idmM (s : State) (ops : List HostOp) :
    (s.programRest ops).idmM = s.idmM := rfl
@[simp] theorem State.programRest_lastOp (s : State) (ops : List HostOp) :
    (s.programRest ops).lastOp = s.lastOp := rfl
@[simp] theorem State.programRest_rxcnt (s : State) (ops : List HostOp) :
    (s.programRest ops).rxcnt = s.rxcnt := rfl
@[simp] theorem State.programRest_rxbuf (s : State) (ops : List HostOp) :
    (s.programRest ops).rxbuf = s.rxbuf := rfl
@[simp] theorem State.programRest_seq (s : State) (ops : List HostOp) :
    (s.programRest ops).seq = s.seq := rfl
@[simp] theorem State.programRest_log (s : State) (ops : List HostOp) :
    (s.programRest ops).log = s.log := rfl
@[simp] theorem State.programRest_program (s : State) (ops : List HostOp) :
    (s.programRest ops).program = ops := rfl
@[simp] theorem State.programRest_hostReads (s : State) (ops : List HostOp) :
    (s.programRest ops).hostReads = s.hostReads := rfl
@[simp] theorem State.programRest_turns (s : State) (ops : List HostOp) :
    (s.programRest ops).turns = s.turns := rfl
@[simp] theorem State.programRest_tick (s : State) (ops : List HostOp) :
    (s.programRest ops).tick = s.tick := rfl
@[simp] theorem State.programRest_answer (s : State) (ops : List HostOp) :
    (s.programRest ops).answer = s.answer := rfl

/-! ### rxCommit: RXCNT and rxbuf, when a bus read ran -/

@[simp] theorem rxCommit_busy (rx : Option (List Byte)) (s : State) : (rxCommit rx s).busy = s.busy := by
  cases rx <;> rfl
@[simp] theorem rxCommit_verified (rx : Option (List Byte)) (s : State) : (rxCommit rx s).verified = s.verified := by
  cases rx <;> rfl
@[simp] theorem rxCommit_busOpen (rx : Option (List Byte)) (s : State) : (rxCommit rx s).busOpen = s.busOpen := by
  cases rx <;> rfl
@[simp] theorem rxCommit_ovr (rx : Option (List Byte)) (s : State) : (rxCommit rx s).ovr = s.ovr := by
  cases rx <;> rfl
@[simp] theorem rxCommit_err (rx : Option (List Byte)) (s : State) : (rxCommit rx s).err = s.err := by
  cases rx <;> rfl
@[simp] theorem rxCommit_idmAg (rx : Option (List Byte)) (s : State) : (rxCommit rx s).idmAg = s.idmAg := by
  cases rx <;> rfl
@[simp] theorem rxCommit_idmM (rx : Option (List Byte)) (s : State) : (rxCommit rx s).idmM = s.idmM := by
  cases rx <;> rfl
@[simp] theorem rxCommit_lastOp (rx : Option (List Byte)) (s : State) : (rxCommit rx s).lastOp = s.lastOp := by
  cases rx <;> rfl
@[simp] theorem rxCommit_seq (rx : Option (List Byte)) (s : State) : (rxCommit rx s).seq = s.seq := by
  cases rx <;> rfl
@[simp] theorem rxCommit_log (rx : Option (List Byte)) (s : State) : (rxCommit rx s).log = s.log := by
  cases rx <;> rfl
@[simp] theorem rxCommit_program (rx : Option (List Byte)) (s : State) : (rxCommit rx s).program = s.program := by
  cases rx <;> rfl
@[simp] theorem rxCommit_hostReads (rx : Option (List Byte)) (s : State) : (rxCommit rx s).hostReads = s.hostReads := by
  cases rx <;> rfl
@[simp] theorem rxCommit_turns (rx : Option (List Byte)) (s : State) : (rxCommit rx s).turns = s.turns := by
  cases rx <;> rfl
@[simp] theorem rxCommit_tick (rx : Option (List Byte)) (s : State) : (rxCommit rx s).tick = s.tick := by
  cases rx <;> rfl
@[simp] theorem rxCommit_answer (rx : Option (List Byte)) (s : State) : (rxCommit rx s).answer = s.answer := by
  cases rx <;> rfl
@[simp] theorem rxCommit_rxcnt (rx : Option (List Byte)) (s : State) :
    (rxCommit rx s).rxcnt = rx.elim s.rxcnt (fun bytes => BitVec.ofNat 8 bytes.length) := by
  cases rx <;> rfl
@[simp] theorem rxCommit_rxbuf (rx : Option (List Byte)) (s : State) :
    (rxCommit rx s).rxbuf = rx.elim s.rxbuf (fun bytes => commitBytes bytes s.rxbuf) := by
  cases rx <;> rfl

/-! ### idmCommit: the match bits and VERIFIED -/

@[simp] theorem idmCommit_busy (idm : Option (Bool × Bool)) (s : State) : (idmCommit idm s).busy = s.busy := by
  cases idm <;> rfl
@[simp] theorem idmCommit_busOpen (idm : Option (Bool × Bool)) (s : State) : (idmCommit idm s).busOpen = s.busOpen := by
  cases idm <;> rfl
@[simp] theorem idmCommit_ovr (idm : Option (Bool × Bool)) (s : State) : (idmCommit idm s).ovr = s.ovr := by
  cases idm <;> rfl
@[simp] theorem idmCommit_err (idm : Option (Bool × Bool)) (s : State) : (idmCommit idm s).err = s.err := by
  cases idm <;> rfl
@[simp] theorem idmCommit_lastOp (idm : Option (Bool × Bool)) (s : State) : (idmCommit idm s).lastOp = s.lastOp := by
  cases idm <;> rfl
@[simp] theorem idmCommit_rxcnt (idm : Option (Bool × Bool)) (s : State) : (idmCommit idm s).rxcnt = s.rxcnt := by
  cases idm <;> rfl
@[simp] theorem idmCommit_rxbuf (idm : Option (Bool × Bool)) (s : State) : (idmCommit idm s).rxbuf = s.rxbuf := by
  cases idm <;> rfl
@[simp] theorem idmCommit_seq (idm : Option (Bool × Bool)) (s : State) : (idmCommit idm s).seq = s.seq := by
  cases idm <;> rfl
@[simp] theorem idmCommit_log (idm : Option (Bool × Bool)) (s : State) : (idmCommit idm s).log = s.log := by
  cases idm <;> rfl
@[simp] theorem idmCommit_program (idm : Option (Bool × Bool)) (s : State) : (idmCommit idm s).program = s.program := by
  cases idm <;> rfl
@[simp] theorem idmCommit_hostReads (idm : Option (Bool × Bool)) (s : State) : (idmCommit idm s).hostReads = s.hostReads := by
  cases idm <;> rfl
@[simp] theorem idmCommit_turns (idm : Option (Bool × Bool)) (s : State) : (idmCommit idm s).turns = s.turns := by
  cases idm <;> rfl
@[simp] theorem idmCommit_tick (idm : Option (Bool × Bool)) (s : State) : (idmCommit idm s).tick = s.tick := by
  cases idm <;> rfl
@[simp] theorem idmCommit_answer (idm : Option (Bool × Bool)) (s : State) : (idmCommit idm s).answer = s.answer := by
  cases idm <;> rfl
@[simp] theorem idmCommit_idmAg (idm : Option (Bool × Bool)) (s : State) :
    (idmCommit idm s).idmAg = idm.elim s.idmAg Prod.fst := by
  cases idm <;> rfl
@[simp] theorem idmCommit_idmM (idm : Option (Bool × Bool)) (s : State) :
    (idmCommit idm s).idmM = idm.elim s.idmM Prod.snd := by
  cases idm <;> rfl
@[simp] theorem idmCommit_verified (idm : Option (Bool × Bool)) (s : State) :
    (idmCommit idm s).verified = (s.verified || idm.elim false (fun m => m.1 && m.2)) := by
  cases idm <;> simp [idmCommit]

/-! ### complete -/

@[simp] theorem complete_busy (c : Completion) (s : State) :
    (complete c s).busy = false := rfl
@[simp] theorem complete_verified (c : Completion) (s : State) :
    (complete c s).verified = (s.verified || c.idm.elim false (fun m => m.1 && m.2)) := by
  simp [complete]
@[simp] theorem complete_busOpen (c : Completion) (s : State) :
    (complete c s).busOpen = s.busOpen := by
  simp [complete]
@[simp] theorem complete_ovr (c : Completion) (s : State) :
    (complete c s).ovr = s.ovr := by
  simp [complete]
@[simp] theorem complete_err (c : Completion) (s : State) :
    (complete c s).err = c.err := rfl
@[simp] theorem complete_idmAg (c : Completion) (s : State) :
    (complete c s).idmAg = c.idm.elim s.idmAg Prod.fst := by
  simp [complete]
@[simp] theorem complete_idmM (c : Completion) (s : State) :
    (complete c s).idmM = c.idm.elim s.idmM Prod.snd := by
  simp [complete]
@[simp] theorem complete_lastOp (c : Completion) (s : State) :
    (complete c s).lastOp = s.lastOp := by
  simp [complete]
@[simp] theorem complete_rxcnt (c : Completion) (s : State) :
    (complete c s).rxcnt = c.rx.elim s.rxcnt (fun bytes => BitVec.ofNat 8 bytes.length) := by
  simp [complete]
@[simp] theorem complete_rxbuf (c : Completion) (s : State) :
    (complete c s).rxbuf = c.rx.elim s.rxbuf (fun bytes => commitBytes bytes s.rxbuf) := by
  simp [complete]
@[simp] theorem complete_seq (c : Completion) (s : State) :
    (complete c s).seq = none := rfl
@[simp] theorem complete_log (c : Completion) (s : State) :
    (complete c s).log = s.log := by
  simp [complete]
@[simp] theorem complete_program (c : Completion) (s : State) :
    (complete c s).program = s.program := by
  simp [complete]
@[simp] theorem complete_hostReads (c : Completion) (s : State) :
    (complete c s).hostReads = s.hostReads := by
  simp [complete]
@[simp] theorem complete_turns (c : Completion) (s : State) :
    (complete c s).turns = s.turns := by
  simp [complete]
@[simp] theorem complete_tick (c : Completion) (s : State) :
    (complete c s).tick = s.tick := by
  simp [complete]
@[simp] theorem complete_answer (c : Completion) (s : State) :
    (complete c s).answer = s.answer := by
  simp [complete]

/-! ### blockReset -/

@[simp] theorem blockReset_busy (s : State) : (blockReset s).busy = State.reset.busy := rfl
@[simp] theorem blockReset_verified (s : State) : (blockReset s).verified = State.reset.verified := rfl
@[simp] theorem blockReset_busOpen (s : State) : (blockReset s).busOpen = State.reset.busOpen := rfl
@[simp] theorem blockReset_ovr (s : State) : (blockReset s).ovr = State.reset.ovr := rfl
@[simp] theorem blockReset_err (s : State) : (blockReset s).err = State.reset.err := rfl
@[simp] theorem blockReset_idmAg (s : State) : (blockReset s).idmAg = State.reset.idmAg := rfl
@[simp] theorem blockReset_idmM (s : State) : (blockReset s).idmM = State.reset.idmM := rfl
@[simp] theorem blockReset_lastOp (s : State) : (blockReset s).lastOp = State.reset.lastOp := rfl
@[simp] theorem blockReset_rxcnt (s : State) : (blockReset s).rxcnt = State.reset.rxcnt := rfl
@[simp] theorem blockReset_rxbuf (s : State) : (blockReset s).rxbuf = State.reset.rxbuf := rfl
@[simp] theorem blockReset_seq (s : State) : (blockReset s).seq = State.reset.seq := rfl
@[simp] theorem blockReset_log (s : State) : (blockReset s).log = State.reset.log := rfl
@[simp] theorem blockReset_program (s : State) : (blockReset s).program = s.program := rfl
@[simp] theorem blockReset_hostReads (s : State) : (blockReset s).hostReads = s.hostReads := rfl
@[simp] theorem blockReset_turns (s : State) : (blockReset s).turns = s.turns := rfl
@[simp] theorem blockReset_tick (s : State) : (blockReset s).tick = s.tick := rfl
@[simp] theorem blockReset_answer (s : State) : (blockReset s).answer = s.answer := rfl

/-! ### turnTaken: only the inputs change -/

@[simp] theorem State.turnTaken_busy (s : State) : s.turnTaken.busy = s.busy := by
  unfold State.turnTaken; split <;> rfl
@[simp] theorem State.turnTaken_verified (s : State) : s.turnTaken.verified = s.verified := by
  unfold State.turnTaken; split <;> rfl
@[simp] theorem State.turnTaken_busOpen (s : State) : s.turnTaken.busOpen = s.busOpen := by
  unfold State.turnTaken; split <;> rfl
@[simp] theorem State.turnTaken_ovr (s : State) : s.turnTaken.ovr = s.ovr := by
  unfold State.turnTaken; split <;> rfl
@[simp] theorem State.turnTaken_err (s : State) : s.turnTaken.err = s.err := by
  unfold State.turnTaken; split <;> rfl
@[simp] theorem State.turnTaken_idmAg (s : State) : s.turnTaken.idmAg = s.idmAg := by
  unfold State.turnTaken; split <;> rfl
@[simp] theorem State.turnTaken_idmM (s : State) : s.turnTaken.idmM = s.idmM := by
  unfold State.turnTaken; split <;> rfl
@[simp] theorem State.turnTaken_lastOp (s : State) : s.turnTaken.lastOp = s.lastOp := by
  unfold State.turnTaken; split <;> rfl
@[simp] theorem State.turnTaken_rxcnt (s : State) : s.turnTaken.rxcnt = s.rxcnt := by
  unfold State.turnTaken; split <;> rfl
@[simp] theorem State.turnTaken_rxbuf (s : State) : s.turnTaken.rxbuf = s.rxbuf := by
  unfold State.turnTaken; split <;> rfl
@[simp] theorem State.turnTaken_seq (s : State) : s.turnTaken.seq = s.seq := by
  unfold State.turnTaken; split <;> rfl
@[simp] theorem State.turnTaken_log (s : State) : s.turnTaken.log = s.log := by
  unfold State.turnTaken; split <;> rfl
@[simp] theorem State.turnTaken_program (s : State) : s.turnTaken.program = s.program := by
  unfold State.turnTaken; split <;> rfl
@[simp] theorem State.turnTaken_hostReads (s : State) : s.turnTaken.hostReads = s.hostReads := by
  unfold State.turnTaken; split <;> rfl
@[simp] theorem State.turnTaken_answer (s : State) : s.turnTaken.answer = offeredBy s.turnNow := by
  unfold State.turnTaken State.turnNow; split <;> rfl

end Sys2Proof.Machine
end

