-- ==== Sys2Proof/Laws/Exec.lean ====
section
/-! SUPPORT. Once for each operation: everything it can do. -/

namespace Sys2Proof.Machine

open Host (Outcome)

/-- The machine's commands are the commands under its own configuration. -/
theorem exec_eq_execUnder (i : Instr) (s : State) : exec i s = execUnder Config.params.cfg i s := by
  cases i <;> rfl

/-- A guard goes to a primitive or ends the command with the command's own guard code. -/
theorem guardOf_cases (i : Instr) (s : State) :
    (∃ k, guardOf i s = .prim k) ∨ (∃ e, guardOf i s = .exit e ∧ guardCode i = some e) := by
  cases i <;> simp only [guardOf, openIfClosed, needBusOpen, needVerified, guardCode] <;> split <;> simp

/-- What running a primitive can do: wait, or log one event and move on by one. -/
theorem runPrim_cases (p : Prim) (k : Nat) (q : Sequencer) (s : State) :
    (p = .busOpen ∧ runPrim p k q s = (((s.logEvent .evOpen).openTheBus).goto q (.prim (k + 1)))) ∨
    (∃ t, p = .delay t ∧ runPrim p k q s = (s.logEvent (.evDelay t)).goto q (.prim (k + 1))) ∨
    (s.answer = none ∧ (∃ dev b0 b1, p = .busWrite dev b0 b1) ∧ runPrim p k q s = s) ∨
    (s.answer = none ∧ (∃ dev rb n, p = .busRead dev rb n) ∧ runPrim p k q s = s) ∨
    (∃ dev b0 b1 a, p = .busWrite dev b0 b1 ∧ s.answer = some a ∧ runPrim p k q s =
      (s.logEvent (.evWrite dev b0 b1 a.ok)).keepAnswer q (k + 1) { ok := a.ok, bytes := [] }) ∨
    (∃ dev rb n a, p = .busRead dev rb n ∧ s.answer = some a ∧ runPrim p k q s =
      (s.logEvent (.evRead dev rb n a.ok (a.bytes.take n))).keepAnswer q (k + 1)
        { ok := a.ok, bytes := a.bytes.take n }) := by
  cases p <;> cases h : s.answer <;> simp [runPrim, h]

/-- What one step of a running command can do. -/
theorem commandTurn_cases {guard : Pos} {prims : List Prim} {done : List Answer → Option Completion}
    {q : Sequencer} {s t : State} (h : commandTurn guard prims done q s = .next t) :
    (q.pos = .start ∧ t = s.goto q guard) ∨
    (∃ e, q.pos = .exit e ∧ t = complete { err := e } s) ∨
    (∃ k p, q.pos = .prim k ∧ prims[k]? = some p ∧ t = runPrim p k q s) ∨
    (q.pos = .prim prims.length ∧ ∃ c, done q.answers = some c ∧ t = complete c s) := by
  unfold commandTurn at h
  split at h
  · rename_i hp; exact .inl ⟨hp, by simpa using h.symm⟩
  · rename_i e hp; exact .inr (.inl ⟨e, hp, by simpa using h.symm⟩)
  · rename_i k hp
    split at h
    · rename_i p hk; exact .inr (.inr (.inl ⟨k, p, hp, hk, by simpa using h.symm⟩))
    · split at h
      · rename_i hk
        split at h
        · rename_i c hc; exact .inr (.inr (.inr ⟨hk ▸ hp, c, hc, by simpa using h.symm⟩))
        · cases h
      · cases h

/-- What `exec` can do: accept or reject, drop, or take a step of the running command. -/
theorem exec_cases {i : Instr} {s t : State} (h : exec i s = .next t) :
    (s.busy = false ∧ t = if i.wf then accept i s else reject (encode i) s) ∨
    (s.busy = true ∧ ∃ q, s.seq = some q ∧ q.cmd ≠ i ∧ t = dropSubmission s) ∨
    (s.busy = true ∧ ∃ q, s.seq = some q ∧ q.cmd = i ∧
      commandTurn (guardOf i s) (procedure Config.params.cfg i) (doneOf Config.params.cfg i) q s =
        .next t) := by
  rw [exec_eq_execUnder, execUnder, runCommand] at h
  split at h
  · rename_i hb
    split at h
    · cases h
    · rename_i q hq
      split at h
      · rename_i hc; exact .inr (.inr ⟨hb, q, hq, hc, h⟩)
      · rename_i hc; exact .inr (.inl ⟨hb, q, hq, hc, by simpa using h.symm⟩)
  · rename_i hb; exact .inl ⟨by simpa using hb, by simpa using h.symm⟩

/-- On a busy block `exec` of the latched command is one step of it. -/
theorem exec_latched {q : Sequencer} {s : State} (hb : s.busy = true) (hq : s.seq = some q) :
    exec q.cmd s = commandTurn (guardOf q.cmd s) (procedure Config.params.cfg q.cmd)
      (doneOf Config.params.cfg q.cmd) q s := by
  rw [exec_eq_execUnder, execUnder, runCommand, if_pos hb, hq]
  exact if_pos rfl

/-- `exec` of the command that runs, by its position. -/
theorem exec_of_runs {i : Instr} {pos : Pos} {as : List Answer} {s : State} (h : Runs i pos as s) :
    exec i s = commandTurn (guardOf i s) (procedure Config.params.cfg i) (doneOf Config.params.cfg i)
      { cmd := i, pos := pos, answers := as } s :=
  exec_latched h.1 h.2

/-- An idle block accepts a well-formed command. -/
theorem exec_idle {i : Instr} {s : State} (hb : s.busy = false) (hw : i.wf = true) :
    exec i s = .next (accept i s) := by
  rw [exec_eq_execUnder, execUnder, runCommand, if_neg (by simp [hb]), if_pos hw]

/-- An idle block rejects a command without a legal word. -/
theorem exec_idle_illFormed {i : Instr} {s : State} (hb : s.busy = false) (hw : i.wf = false) :
    exec i s = .next (reject (encode i) s) := by
  rw [exec_eq_execUnder, execUnder, runCommand, if_neg (by simp [hb]), if_neg (by simp [hw])]

/-- The inputs and the host are no command's to change. -/
theorem exec_inputs {i : Instr} {s t : State} (h : exec i s = .next t) :
    t.program = s.program ∧ t.hostReads = s.hostReads ∧ t.turns = s.turns ∧ t.tick = s.tick ∧
      t.answer = s.answer := by
  rcases exec_cases h with ⟨_, rfl⟩ | ⟨_, q, _, _, rfl⟩ | ⟨_, q, _, _, hc⟩
  · split <;> simp
  · simp
  · rcases commandTurn_cases hc with ⟨_, rfl⟩ | ⟨e, _, rfl⟩ | ⟨k, p, _, _, rfl⟩ | ⟨_, c, _, rfl⟩
    · simp
    · simp
    · rcases runPrim_cases p k q s with ⟨_, h⟩ | ⟨_, _, h⟩ | ⟨_, _, h⟩ | ⟨_, _, h⟩ | ⟨_, _, _, _, _, _, h⟩ |
        ⟨_, _, _, _, _, _, h⟩ <;> simp [h]
    · simp

end Sys2Proof.Machine
end

