-- ==== Sys2Proof/Laws/Words.lean ====
section
/-! SUPPORT. The fields of an encoded word (30_encoding.md R80, R81), of the STATUS word (10_state.md R23) and
of the other host registers, each said once. -/

namespace Sys2Proof

/-! ### Fields of an encoded word -/

@[simp] theorem opField_encodeFields (op : BitVec 4) (dev : DevAddr) (ra arg : Byte) :
    opField (encodeFields op dev ra arg) = op := by
  ext i hi
  simp [opField, encodeFields, hi, show i < 24 by omega, show i < 16 by omega, show i < 8 by omega,
    show i < 32 by omega]

@[simp] theorem rsv0Field_encodeFields (op : BitVec 4) (dev : DevAddr) (ra arg : Byte) :
    rsv0Field (encodeFields op dev ra arg) = 0 := by
  ext i hi
  simp [rsv0Field, encodeFields, show 4 + i < 24 by omega, show 4 + i < 16 by omega,
    show 4 + i < 8 by omega, show 4 + i < 32 by omega]

@[simp] theorem devField_encodeFields (op : BitVec 4) (dev : DevAddr) (ra arg : Byte) :
    devField (encodeFields op dev ra arg) = dev := by
  ext i hi
  simp [devField, encodeFields, hi, show 8 + i < 24 by omega, show 8 + i < 16 by omega,
    show 8 + i < 32 by omega, BitVec.getLsbD_of_ge op (8 + i) (by omega)]

@[simp] theorem rsv1Field_encodeFields (op : BitVec 4) (dev : DevAddr) (ra arg : Byte) :
    rsv1Field (encodeFields op dev ra arg) = 0 := by
  ext i hi
  obtain rfl : i = 0 := by omega
  simp [rsv1Field, encodeFields]

@[simp] theorem regField_encodeFields (op : BitVec 4) (dev : DevAddr) (ra arg : Byte) :
    regField (encodeFields op dev ra arg) = ra := by
  ext i hi
  simp [regField, encodeFields, hi, show 16 + i < 24 by omega, show 16 + i < 32 by omega,
    BitVec.getLsbD_of_ge op (16 + i) (by omega), BitVec.getLsbD_of_ge dev (16 + i - 8) (by omega)]

@[simp] theorem argField_encodeFields (op : BitVec 4) (dev : DevAddr) (ra arg : Byte) :
    argField (encodeFields op dev ra arg) = arg := by
  ext i hi
  simp [argField, encodeFields, hi, show 24 + i < 32 by omega,
    BitVec.getLsbD_of_ge op (24 + i) (by omega), BitVec.getLsbD_of_ge dev (24 + i - 8) (by omega),
    BitVec.getLsbD_of_ge ra (24 + i - 16) (by omega)]

/-- Bits 7:4 of a word whose RSV0 is zero, and bit 15 of one whose RSV1 is zero. -/
theorem reserved_bits_zero (w : Word) (h0 : rsv0Field w = 0) (h1 : rsv1Field w = 0) (i : Nat)
    (hi : (4 ≤ i ∧ i < 8) ∨ i = 15) : w.getLsbD i = false := by
  rcases hi with ⟨hl, hu⟩ | rfl
  · have h := congrArg (fun v => v.getLsbD (i - 4)) h0
    simpa [rsv0Field, show i - 4 < 4 by omega, show 4 + (i - 4) = i by omega] using h
  · have h := congrArg (fun v => v.getLsbD 0) h1
    simpa [rsv1Field] using h

/-- A word is its fields, when its reserved fields are zero. -/
theorem encodeFields_fields (w : Word) (h0 : rsv0Field w = 0) (h1 : rsv1Field w = 0) :
    encodeFields (opField w) (devField w) (regField w) (argField w) = w := by
  have hr := reserved_bits_zero w h0 h1
  apply BitVec.eq_of_getLsbD_eq
  intro i hi
  have cases_i : i < 4 ∨ (4 ≤ i ∧ i < 8) ∨ (8 ≤ i ∧ i < 15) ∨ i = 15 ∨ (16 ≤ i ∧ i < 24) ∨ 24 ≤ i := by
    omega
  rcases cases_i with h | h | h | h | h | h
  · simp [encodeFields, opField, hi, h, show i < 24 by omega, show i < 16 by omega, show i < 8 by omega]
  · have hw : w[i] = false := (BitVec.getLsbD_eq_getElem hi).symm.trans (hr i (.inl h))
    simp [encodeFields, opField, hi, hw, show ¬ i < 4 by omega, show i < 24 by omega,
      show i < 16 by omega, h.2]
  · simp [encodeFields, opField, devField, hi, show i < 24 by omega, show i < 16 by omega,
      show ¬ i < 8 by omega, show i - 8 < 7 by omega, show 8 + (i - 8) = i by omega, show ¬ i < 4 by omega]
  · subst h
    have hw : w[15] = false := (BitVec.getLsbD_eq_getElem hi).symm.trans (hr 15 (.inr rfl))
    simp [encodeFields, opField, devField, hw]
  · simp [encodeFields, opField, devField, regField, hi, h.2, show ¬ i < 16 by omega, show ¬ i < 8 by omega,
      show ¬ i - 8 < 7 by omega, show i - 16 < 8 by omega, show 16 + (i - 16) = i by omega,
      show ¬ i < 4 by omega]
  · simp [encodeFields, opField, devField, regField, argField, hi, show ¬ i < 24 by omega,
      show i - 24 < 8 by omega, show 24 + (i - 24) = i by omega, show ¬ i < 4 by omega,
      show ¬ i - 8 < 7 by omega, show ¬ i - 16 < 8 by omega]

/-- A bit at or above 8 of a word whose operand bits are zero. -/
theorem operand_bit_zero (w : Word) (h : operandBits w = 0) (i : Nat) (hi : 8 ≤ i) :
    w.getLsbD i = false := by
  by_cases h32 : i < 32
  · have hb := congrArg (fun v => v.getLsbD (i - 8)) h
    simpa [operandBits, show i - 8 < 24 by omega, show 8 + (i - 8) = i by omega] using hb
  · exact BitVec.getLsbD_of_ge w i (by omega)

/-- Bits 31:8 are zero only if the operand fields are. -/
theorem fields_of_operandBits (w : Word) (h : operandBits w = 0) :
    devField w = 0 ∧ rsv1Field w = 0 ∧ regField w = 0 ∧ argField w = 0 := by
  have hz := operand_bit_zero w h
  refine ⟨?_, ?_, ?_, ?_⟩ <;> apply BitVec.eq_of_getLsbD_eq <;> intro i hi
  · simp [devField, hz (8 + i) (by omega)]
  · simp [rsv1Field, hz (15 + i) (by omega)]
  · simp [regField, hz (16 + i) (by omega)]
  · simp [argField, hz (24 + i) (by omega)]

/-- A format Z word is the encoding of its OP field alone. -/
theorem encodeFields_opField (w : Word) (h0 : rsv0Field w = 0) (h : operandBits w = 0) :
    encodeFields (opField w) 0 0 0 = w := by
  obtain ⟨hd, h1, hr, ha⟩ := fields_of_operandBits w h
  have he := encodeFields_fields w h0 h1
  rwa [hd, hr, ha] at he

/-- Operand fields that are zero leave bits 31:8 zero. -/
@[simp] theorem operandBits_encodeFields_zero (op : BitVec 4) :
    operandBits (encodeFields op 0#7 0#8 0#8) = 0#24 := by
  revert op; decide

end Sys2Proof

namespace Sys2Proof.Machine

/-! ### Fields of the STATUS word -/

@[simp] theorem status_busy (s : State) : s.status[0] = s.busy := by
  simp [State.status, bitAt]

@[simp] theorem status_verified (s : State) : s.status[1] = s.verified := by
  simp [State.status, bitAt]

@[simp] theorem status_busOpen (s : State) : s.status[2] = s.busOpen := by
  simp [State.status, bitAt]

@[simp] theorem status_ovr (s : State) : s.status[3] = s.ovr := by
  simp [State.status, bitAt]

/-! ### The other registers -/

@[simp] theorem hostRegister_cmd (s : State) : s.hostRegister 0x00 = 0 := rfl
@[simp] theorem hostRegister_status (s : State) : s.hostRegister 0x04 = s.status := rfl
@[simp] theorem hostRegister_rxcnt (s : State) : s.hostRegister 0x08 = s.rxcntWord := rfl
@[simp] theorem hostRegister_rxdata0 (s : State) : s.hostRegister 0x0C = s.rxdata0 := rfl
@[simp] theorem hostRegister_rxdata1 (s : State) : s.hostRegister 0x10 = s.rxdata1 := rfl

end Sys2Proof.Machine
end

