-- ==== Sys2Proof/Laws/PerInstr.lean ====
section
/-! SUPPORT. What holds of every command's word, command by command. -/

namespace Sys2Proof.Laws.Fields

/-- The command's word carries its opcode, and its reserved fields are zero (30_encoding.md R80, R81). -/
def Statement (i : Instr) : Prop :=
  opField (encode i) = opCode i ∧ rsv0Field (encode i) = 0 ∧ rsv1Field (encode i) = 0

theorem openBus : Statement .openBus := by simp [Statement, encode]

theorem write (dev : DevAddr) (ra val : Byte) : Statement (.write dev ra val) := by
  simp [Statement, encode]

theorem read (dev : DevAddr) (ra cnt : Byte) : Statement (.read dev ra cnt) := by
  simp [Statement, encode]

theorem detect : Statement .detect := by simp [Statement, encode]

theorem enable : Statement .enable := by simp [Statement, encode]

theorem rdacc : Statement .rdacc := by simp [Statement, encode]

theorem rdgyr : Statement .rdgyr := by simp [Statement, encode]

theorem rdmag : Statement .rdmag := by simp [Statement, encode]

end Sys2Proof.Laws.Fields
end

