-- ==== Sys2Proof/Laws/Step.lean ====
section
/-! SUPPORT. Everything a step of the host, of the controller and of the machine can do. -/

namespace Sys2Proof.Machine

open Host (Outcome)

/-- The decoder's command has the word's OP field as its opcode (30_encoding.md R84, R85). -/
theorem opCode_of_decode {w : Word} {i : Instr} (h : decode w = .ok i) : opCode i = opField w := by
  have hz : ∀ j, decodeZ w j = .ok i → i = j := by
    intro j hj; unfold decodeZ at hj; split at hj <;> simp_all
  unfold decode at h
  split at h
  · cases h
  · split at h
    · rename_i hop; rw [hz _ h]; exact BitVec.eq_of_toNat_eq hop.symm
    · rename_i hop; cases h; exact BitVec.eq_of_toNat_eq hop.symm
    · rename_i hop
      split at h
      · cases h; exact BitVec.eq_of_toNat_eq hop.symm
      · cases h
    · rename_i hop; rw [hz _ h]; exact BitVec.eq_of_toNat_eq hop.symm
    · rename_i hop; rw [hz _ h]; exact BitVec.eq_of_toNat_eq hop.symm
    · rename_i hop; rw [hz _ h]; exact BitVec.eq_of_toNat_eq hop.symm
    · rename_i hop; rw [hz _ h]; exact BitVec.eq_of_toNat_eq hop.symm
    · rename_i hop; rw [hz _ h]; exact BitVec.eq_of_toNat_eq hop.symm
    · cases h

/-- The decoder gives well-formed commands only (30_encoding.md R83, R84). -/
theorem wf_of_decode {w : Word} {i : Instr} (h : decode w = .ok i) : i.wf = true := by
  have hz : ∀ j : Instr, j.wf = true → decodeZ w j = .ok i → i.wf = true := by
    intro j hj hd; unfold decodeZ at hd; split at hd
    · cases hd
    · cases hd; exact hj
  unfold decode at h
  split at h
  · cases h
  · split at h
    · exact hz _ rfl h
    · cases h; rfl
    · split at h
      · rename_i hc; cases h; exact hc
      · cases h
    · exact hz _ rfl h
    · exact hz _ rfl h
    · exact hz _ rfl h
    · exact hz _ rfl h
    · exact hz _ rfl h
    · cases h

/-- What a submission can do: drop, reject, or hand the command to `exec`. -/
theorem submit_cases {w : Word} {s t : State} (h : submit exec w s = .next t) :
    (s.busy = true ∧ t = dropSubmission s) ∨
    (s.busy = false ∧ (∃ e, decode w = .error e) ∧ t = reject w s) ∨
    (s.busy = false ∧ ∃ i, decode w = .ok i ∧ t = accept i s) := by
  unfold submit at h
  split at h
  · rename_i hb; exact .inl ⟨hb, by simpa using h.symm⟩
  · rename_i hb
    have hb' : s.busy = false := by simpa using hb
    split at h
    · rename_i i hi
      rw [exec_idle hb' (wf_of_decode hi)] at h
      exact .inr (.inr ⟨hb', i, hi, by simpa using h.symm⟩)
    · rename_i e he; exact .inr (.inl ⟨hb', ⟨e, he⟩, by simpa using h.symm⟩)

/-- What a host step can do. -/
theorem hostStep_cases {s t : State} (h : hostStep exec s = .next t) :
    (s.program = [] ∧ t = s) ∨
    (∃ size off ops, s.program = .read size off :: ops ∧ supported size off = true ∧
      t = (s.programRest ops).hostSees (s.hostRegister off)) ∨
    (∃ size off v ops, s.program = .write size off v :: ops ∧ supported size off = true ∧ off ≠ 0 ∧
      t = s.programRest ops) ∨
    (∃ size w ops, s.program = .write size 0 w :: ops ∧ supported size 0 = true ∧
      submit exec w (s.programRest ops) = .next t) ∨
    (∃ ops, s.program = .wait :: ops ∧ s.busy = true ∧ t = s.hostSees s.status) ∨
    (∃ ops, s.program = .wait :: ops ∧ s.busy = false ∧
      t = (s.programRest ops).hostSees s.status) := by
  unfold hostStep at h
  split at h
  · rename_i hp; exact .inl ⟨hp, by simpa using h.symm⟩
  · rename_i size off ops hp
    split at h
    · rename_i hs; exact .inr (.inl ⟨size, off, ops, hp, hs, by simpa using h.symm⟩)
    · cases h
  · rename_i size off v ops hp
    split at h
    · rename_i hs
      unfold hostWrite at h
      split at h
      · rename_i h0; subst h0; exact .inr (.inr (.inr (.inl ⟨size, v, ops, hp, hs, h⟩)))
      · rename_i h0; exact .inr (.inr (.inl ⟨size, off, v, ops, hp, hs, h0, by simpa using h.symm⟩))
    · cases h
  · rename_i ops hp
    split at h
    · rename_i hb
      exact .inr (.inr (.inr (.inr (.inl ⟨ops, hp, by simpa using hb, by simpa using h.symm⟩))))
    · rename_i hb
      exact .inr (.inr (.inr (.inr (.inr ⟨ops, hp, by simpa using hb, by simpa using h.symm⟩))))

/-- What a controller step can do. -/
theorem controllerStep_cases {s t : State} (h : controllerStep exec s = .next t) :
    (s.busy = false ∧ t = s) ∨ (s.busy = true ∧ ∃ q, s.seq = some q ∧ exec q.cmd s = .next t) := by
  unfold controllerStep at h
  split at h
  · rename_i hb
    split at h
    · rename_i q hq; exact .inr ⟨hb, q, hq, h⟩
    · cases h
  · rename_i hb; exact .inl ⟨by simpa using hb, by simpa using h.symm⟩

/-- What a step of the machine can do, by whose turn it is. -/
theorem step_cases {s t : State} (h : step s = .next t) :
    (s.turnNow = .host ∧ hostStep exec s.turnTaken = .next t) ∨
    (∃ a, s.turnNow = .controller a ∧ controllerStep exec s.turnTaken = .next t) ∨
    (s.turnNow = .reset ∧ t = blockReset s.turnTaken) := by
  unfold step stepWith agentStep at h
  split at h
  · rename_i hn; exact .inl ⟨hn, h⟩
  · rename_i a hn; exact .inr (.inl ⟨a, hn, h⟩)
  · rename_i hn; exact .inr (.inr ⟨hn, by simpa using h.symm⟩)

/-- The step on a host turn of the list. -/
theorem step_host {s : State} {ts : List Turn} (h : s.turns = .host :: ts) :
    step s = hostStep exec { s with turns := ts, answer := none } := by
  simp [step, stepWith, agentStep, State.turnNow, State.turnTaken, h, offeredBy]

/-- The step on a controller turn of the list. -/
theorem step_controller {s : State} {a : Option Answer} {ts : List Turn}
    (h : s.turns = .controller a :: ts) :
    step s = controllerStep exec { s with turns := ts, answer := a } := by
  simp [step, stepWith, agentStep, State.turnNow, State.turnTaken, h, offeredBy]

/-- The step on a reset turn of the list. -/
theorem step_reset {s : State} {ts : List Turn} (h : s.turns = .reset :: ts) :
    step s = .next (blockReset { s with turns := ts, answer := none }) := by
  simp [step, stepWith, agentStep, State.turnNow, State.turnTaken, h, offeredBy]

/-- A controller turn of a busy block runs the latched command. -/
theorem step_controller_busy {s : State} {q : Sequencer} {a : Option Answer} {ts : List Turn}
    (h : s.turns = .controller a :: ts) (hb : s.busy = true) (hq : s.seq = some q) :
    step s = exec q.cmd { s with turns := ts, answer := a } := by
  rw [step_controller h, controllerStep, if_pos hb]
  simp only [hq]

/-! ### Runs of several steps -/

@[simp] theorem runFor_zero (s : State) : runFor 0 s = .next s := rfl

/-- One step, then the rest. -/
theorem runFor_succ {k : Nat} {s t : State} (h : step s = .next t) : runFor (k + 1) s = runFor k t := by
  have h' : Sys2Proof.core.step s = .next t := h
  simp only [runFor, Host.Core.run]
  rw [h']

end Sys2Proof.Machine
end

