-- ==== Sys2Proof/Tests/Slice0.lean ====
section
/-! SUPPORT. Tests whose expected results are the spec's own examples (30_encoding.md R90, 95_test_vectors.md),
and a witness for the hypotheses of every statement. -/

namespace Sys2Proof.Tests

open Sys2Proof Sys2Proof.Machine
open Host (Outcome)

/-! ### Helpers -/

/-- A value read off the next state of an outcome. -/
def after {α : Type} (f : State → α) : Outcome State Fault Refusal → Option α
  | .next t => some (f t)
  | .fault _ => none
  | .refused _ => none

/-- A block with an open bus. -/
def opened : State := { State.reset with busOpen := true, log := [.evOpen] }

/-- The block of 95_test_vectors.md whose STATUS is 0x00040306: Verified after a DETECT. -/
def verifiedBlock : State := { opened with verified := true, idmAg := true, idmM := true, lastOp := 4 }

/-- `s` running command `i` at `pos` with the answers `as`, accepted by R85. -/
def runs (s : State) (i : Instr) (pos : Pos) (as : List Answer) : State :=
  { s with busy := true, lastOp := opCode i, seq := some { cmd := i, pos := pos, answers := as } }

/-- `s` with the host about to make `op`. -/
def hostAbout (s : State) (op : HostOp) : State := { s with turns := [.host], program := [op] }

/-- `s` with the controller's turn and the platform's answer `a`. -/
def controllerAbout (s : State) (a : Option Answer) : State := { s with turns := [.controller a] }

def good (bytes : List Byte) : Answer := { ok := true, bytes := bytes }
def bad (bytes : List Byte) : Answer := { ok := false, bytes := bytes }

/-! ### WellFormed refuses each ill-formed term (R83: a READ count outside 1 to 6) -/

theorem test_wf_refuses_read_count_zero : (Instr.read 0x6B 0x28 0).wf = false := by decide
theorem test_wf_refuses_read_count_seven : (Instr.read 0x6B 0x28 7).wf = false := by decide
theorem test_wf_takes_read_count_bounds :
    (Instr.read 0 0 1).wf = true ∧ (Instr.read 0x7F 0xFF 6).wf = true := by decide

/-! ### Decoding: words written out from R80 to R83 and 95_test_vectors.md 2.1 -/

/-- ARG, REG, RSV1, DEV, RSV0, OP, bit by bit. -/
theorem test_decode_write_bits :
    decode (0b01000100#8 ++ 0b00100010#8 ++ 0b0#1 ++ 0b1101011#7 ++ 0b0000#4 ++ 0b0010#4) =
      .ok (.write 0x6B 0x22 0x44) := by decide
theorem test_decode_read_bits :
    decode (0b00000110#8 ++ 0b00101000#8 ++ 0b0#1 ++ 0b0011110#7 ++ 0b0000#4 ++ 0b0011#4) =
      .ok (.read 0x1E 0x28 6) := by decide
theorem test_decode_open : decode (0#28 ++ 0b0001#4) = .ok .openBus := by decide
theorem test_decode_detect : decode (0#28 ++ 0b0100#4) = .ok .detect := by decide
theorem test_decode_enable : decode (0#28 ++ 0b0101#4) = .ok .enable := by decide
theorem test_decode_rdacc : decode (0#28 ++ 0b0110#4) = .ok .rdacc := by decide
theorem test_decode_rdgyr : decode (0#28 ++ 0b0111#4) = .ok .rdgyr := by decide
theorem test_decode_rdmag : decode (0#28 ++ 0b1000#4) = .ok .rdmag := by decide
theorem test_decode_operands_at_maximum :
    decode 0xFFFF7F02 = .ok (.write 0x7F 0xFF 0xFF) ∧ decode 0x06000003 = .ok (.read 0 0 6) := by decide
theorem test_decode_rejects_by_name :
    decode 0x00000003 = .error .readCount ∧ decode 0x07000003 = .error .readCount ∧
    decode 0x00000000 = .error .reservedOp ∧ decode 0x00000009 = .error .reservedOp ∧
    decode 0x0000000F = .error .reservedOp ∧ decode 0x00000012 = .error .reservedBits ∧
    decode 0x00008002 = .error .reservedBits ∧ decode 0x00000104 = .error .operandBits ∧
    decode 0x01000001 = .error .operandBits ∧ decode 0x80000008 = .error .operandBits := by decide
theorem test_encode_words :
    encode (.write 0x6B 0x22 0x44) = 0x44226B02 ∧ encode (.read 0x6B 0x0F 1) = 0x010F6B03 ∧
    encode .rdmag = 0x00000008 := by decide
theorem test_decodeTableWord :
    decodeTableWord 32 0x44226B02 = some (.write 0x6B 0x22 0x44) ∧ decodeTableWord 32 9 = none := by decide

/-! ### Configurations (95_test_vectors.md 2.4) -/

theorem test_tc_well_formed : Config.tc.wf = true := by decide
theorem test_enableSeq_start_before_bdu_refused :
    enableSeqWf [⟨.ag, 0x20, 0xC0, [.start]⟩, ⟨.ag, 0x22, 0x44, [.bdu]⟩, ⟨.m, 0x22, 0x00, [.start]⟩] =
      false := by decide
theorem test_enableSeq_one_write_both_roles :
    enableSeqWf [⟨.ag, 0x22, 0xC4, [.bdu, .start]⟩, ⟨.m, 0x22, 0x00, [.start]⟩] = true := by decide
theorem test_enableSeq_without_m_refused :
    enableSeqWf [⟨.ag, 0x22, 0x44, [.bdu]⟩, ⟨.ag, 0x20, 0xC0, [.start]⟩] = false ∧
    enableSeqWf [] = false := by decide
theorem test_mag_register_byte :
    [0x28, 0x00, 0x7F, 0xA8, 0x80].map (fun b => magRegByte { Config.tc with magDataReg := b }) =
      [0xA8, 0x80, 0xFF, 0xA8, 0x80] := by decide

/-! ### Submission (95_test_vectors.md 2.1): one step from reset -/

theorem test_submit_accepted :
    after State.status (step (State.reset.withFetchWord 32 0x44226B02)) = some 0x00020001 := by decide
theorem test_submit_illegal :
    after State.status (step (State.reset.withFetchWord 32 0x00008002)) = some 0x00020010 ∧
    after State.seq (step (State.reset.withFetchWord 32 0x00008002)) = some none := by decide
/-- DETECT runs, BusOpen has run, RDACC is written: dropped. -/
theorem test_submit_while_busy_dropped :
    after State.status (step (hostAbout (runs opened .detect (.prim 1) []) (.write 4 0 6))) =
      some 0x0004000D := by decide
theorem test_submit_clears_overrun :
    after State.status (step (hostAbout { verifiedBlock with ovr := true } (.write 4 0 9))) =
      some 0x00090316 := by decide

/-! ### Transport commands (95_test_vectors.md 2.2) -/

theorem test_open_busOpen_step :
    after (fun t => (t.status, t.log)) (exec .openBus (runs State.reset .openBus (.prim 0) [])) =
      some (0x00010005, [.evOpen]) := by decide
theorem test_open_completes :
    after State.status (exec .openBus (runs opened .openBus (.prim 1) [])) = some 0x00010004 := by decide
theorem test_write_logs_register_then_value :
    after State.log (exec (.write 0x6B 0x22 0x44)
      { runs opened (.write 0x6B 0x22 0x44) (.prim 0) [] with answer := some (bad []) }) =
      some [.evOpen, .evWrite 0x6B 0x22 0x44 false] := by decide
theorem test_write_failed_and_write_on_closed_bus :
    after State.status (exec (.write 0x6B 0x22 0x44)
      (runs opened (.write 0x6B 0x22 0x44) (.prim 1) [bad []])) = some 0x00020044 ∧
    after State.status (exec (.write 0x6B 0x22 0x44)
      (runs State.reset (.write 0x6B 0x22 0x44) (.exit .busClosed) [])) = some 0x00020020 := by decide
theorem test_read_never_adds_0x80 :
    after State.log (exec (.read 0x1E 0x28 6)
      { runs opened (.read 0x1E 0x28 6) (.prim 0) [] with answer := some (good [1]) }) =
      some [.evOpen, .evRead 0x1E 0x28 6 true [1]] := by decide
/-- Program P3: a short read keeps the stale bytes 4 and 5. -/
theorem test_read_short_keeps_stale_bytes :
    after (fun t => (t.status, t.hostRegister 0x08, t.hostRegister 0x0C, t.hostRegister 0x10))
      (exec (.read 0x6B 0x28 6) { runs opened (.read 0x6B 0x28 6) (.prim 1) [good [1, 2, 3, 4]] with
        rxbuf := #v[0xAA, 0xBB, 0xCC, 0xDD, 0xEE, 0xFF] }) =
      some (0x00030054, 4, 0x04030201, 0x0000FFEE) := by decide

/-! ### Driver commands under TC (95_test_vectors.md E1 to E7, 2.3 to 2.5) -/

/-- E2, one theorem for its four cases: both match, only one does, none does. -/
theorem test_detect_four_cases :
    [([0x68], [0x3D]), ([0x68], [0x00]), ([0x00], [0x3D]), ([0x00], [0x00])].map
      (fun p : List Byte × List Byte => after State.status
        (detectStep Config.tc (runs opened .detect (.prim 4) [good p.1, good p.2]))) =
      [some 0x00040306, some 0x00040164, some 0x00040264, some 0x00040064] := by decide
/-- E1: VERIFIED stays. -/
theorem test_detect_never_unverifies :
    after State.status (detectStep Config.tc
      (runs verifiedBlock .detect (.prim 4) [good [0x00], good [0x3D]])) = some 0x00040266 := by decide
theorem test_enable_logs_entry :
    after State.log (enableStep Config.tc
      { runs verifiedBlock .enable (.prim 8) [] with answer := some (good []) }) =
      some [.evOpen, .evWrite 0x1E 0x22 0x00 true] := by decide
theorem test_enable_one_failed_write :
    after State.status (enableStep Config.tc (runs verifiedBlock .enable (.prim 9)
      [good [], good [], bad [], good [], good [], good [], good [], good [], good []])) =
      some 0x00050346 := by decide
/-- E6. -/
theorem test_rdacc_sample :
    after (fun t => (t.status, t.hostRegister 0x0C, t.hostRegister 0x10, t.sampleX, t.sampleY, t.sampleZ))
      (rdaccStep Config.tc
        (runs verifiedBlock .rdacc (.prim 1) [good [0x10, 0x00, 0x20, 0x00, 0x30, 0x00]])) =
      some (0x00060306, 0x00200010, 0x00000030, 16, 32, 48) := by decide
theorem test_rdacc_unverified :
    after State.status (rdaccStep Config.tc (runs State.reset .rdacc (.exit .notVerified) [])) =
      some 0x00060030 := by decide
theorem test_rdgyr_bus_fail :
    after (fun t => (t.status, t.rxcnt)) (rdgyrStep Config.tc
      (runs verifiedBlock .rdgyr (.prim 1) [bad []])) = some (0x00070346, 0) := by decide
theorem test_rdgyr_register :
    after State.log (rdgyrStep Config.tc
      { runs verifiedBlock .rdgyr (.prim 0) [] with answer := some (bad []) }) =
      some [.evOpen, .evRead 0x6B 0x18 6 false []] := by decide
/-- E7. -/
theorem test_rdmag_register :
    after State.log (rdmagStep Config.tc
      { runs verifiedBlock .rdmag (.prim 0) [] with answer := some (good []) }) =
      some [.evOpen, .evRead 0x1E 0xA8 6 true []] := by decide
/-- Program P2's sample. -/
theorem test_rdmag_negative_sample :
    after (fun t => (t.hostRegister 0x0C, t.sampleX, t.sampleY, t.sampleZ)) (rdmagStep Config.tc
      (runs verifiedBlock .rdmag (.prim 1) [good [0xFF, 0xFF, 0x00, 0x80, 0xFF, 0x7F]])) =
      some (0x8000FFFF, -1, -32768, 32767) := by decide

/-! ### Host accesses and text (95_test_vectors.md 2.7, 30_encoding.md R88 to R90) -/

theorem test_host_reads_reserved_zero :
    after State.hostReads (step (hostAbout opened (.read 4 0x14))) = some [0] := by decide
theorem test_host_write_status_ignored :
    after State.status (step (hostAbout verifiedBlock (.write 4 4 0xFFFFFFFF))) = some 0x00040306 := by
  decide
theorem test_host_unsupported_refused :
    after State.status (step (hostAbout opened (.read 1 4))) = none ∧
    after State.status (step (hostAbout opened (.read 4 2))) = none ∧
    after State.status (step (hostAbout opened (.write 4 0x40 0))) = none := by decide
theorem test_wait_stays_while_busy :
    after (fun t => t.program) (step (hostAbout (runs opened .detect (.prim 1) []) .wait)) = some [.wait] ∧
    after (fun t => t.program) (step (hostAbout opened .wait)) = some [] := by decide
theorem test_assemble_do_write :
    assembleLine "DO WRITE 0x6B, 0x22, 0x44 ; hw CMD, 0x44226B02".toList =
      some [.wait, .write 4 0 0x44226B02, .wait] := by decide
theorem test_assemble_host_lines :
    assemble ["hr RXDATA1", "hw STATUS, 255", "WAIT", "SUBMIT READ 0x1E, 0x28, 6"] =
      some [.read 4 0x10, .write 4 4 255, .wait, .write 4 0 0x06281E03] := by decide
theorem test_assemble_refuses_out_of_range :
    assembleText "WRITE 0x80, 0, 0".toList = none ∧ assembleText "READ 0x1E, 0, 7".toList = none := by decide

/-! ### Witnesses: a state and operands that meet the hypotheses of each statement, clause by clause -/

/-- The configuration writes something (R143). -/
theorem enableSeq_ne_nil : Config.params.cfg.enableSeq ≠ [] := by
  intro h
  have hw := Config.params.wf
  simp [Config.wf, enableSeqWf, h] at hw

theorem witness_DecodeAndEncodeAgree :
    (Instr.read 0x7F 0xFF 6).wf = true ∧ (Instr.read 0 0 1).wf = true ∧
    (Instr.write 0x7F 0xFF 0xFF).wf = true ∧ Instr.rdmag.wf = true ∧
    decode 0x06FF7F03 = .ok (.read 0x7F 0xFF 6) ∧ decode 0x01000003 = .ok (.read 0 0 1) := by decide

theorem witness_WordsMatchTheTable :
    (⟨"READ", 0x00000003, 0x000080FF, true⟩ : TableRow) ∈ commandTable ∧
    (⟨"READ", 0x00000003, 0x000080FF, true⟩ : TableRow).hits 0x06FF7F03 = true ∧
    (⟨"RDMAG", 0x00000008, 0xFFFFFFFF, false⟩ : TableRow) ∈ commandTable ∧
    (⟨"RDMAG", 0x00000008, 0xFFFFFFFF, false⟩ : TableRow).hits 8 = true := by decide

/-- The host is about to write `w` to CMD. -/
def submitting (s : State) (w : Word) : State := hostAbout s (.write 4 0 w)

theorem witness_IllegalWordRejected :
    (submitting opened 9).turns = .host :: [] ∧ (submitting opened 9).program = .write 4 0 9 :: [] ∧
    (submitting opened 9).busy = false ∧ decode 9 = .error .reservedOp := by decide

theorem witness_SubmissionDropsRejectsOrAccepts :
    (∀ s ∈ [submitting opened 9, submitting opened 1, submitting (runs opened .detect (.prim 1) []) 6],
      s.turns = .host :: []) ∧
    (submitting opened 9).busy = false ∧ decode 9 = .error .reservedOp ∧
    (submitting opened 1).busy = false ∧ decode 1 = .ok .openBus ∧
    (submitting (runs opened .detect (.prim 1) []) 6).busy = true ∧
    (submitting (runs opened .detect (.prim 1) []) 6).program = .write 4 0 6 :: [] := by decide

theorem witness_StepRunsTheSubmittedCommand :
    (submitting opened 0x06000003).turns = .host :: [] ∧
    (submitting opened 0x06000003).program = .write 4 0 0x06000003 :: [] ∧
    (submitting opened 0x06000003).busy = false ∧ decode 0x06000003 = .ok (.read 0 0 6) := by decide

theorem witness_StepRunsTheLatchedCommand :
    (controllerAbout (runs opened .rdmag .start []) (some (good [1]))).turns =
      .controller (some (good [1])) :: [] ∧
    (controllerAbout (runs opened .rdmag .start []) none).busy = true ∧
    (controllerAbout (runs opened .rdmag .start []) none).seq =
      some { cmd := .rdmag, pos := .start, answers := [] } := by decide

theorem witness_FreeTurnWhenNoneIsListed : State.reset.turns = [] ∧ opened.turns = [] := by decide

theorem witness_ExecAcceptsRejectsOrDrops :
    opened.busy = false ∧ Instr.rdacc.wf = true ∧ (Instr.read 0 0 7).wf = false ∧
    (runs opened .detect .start []).busy = true ∧
    (runs opened .detect .start []).seq = some { cmd := .detect, pos := .start, answers := [] } ∧
    Instr.detect ≠ Instr.rdacc := by decide

theorem witness_HostReadHasNoSideEffect :
    (∀ off ∈ [0x00, 0x04, 0x10, 0x3C],
      (hostAbout opened (.read 4 off)).turns = .host :: [] ∧
      (hostAbout opened (.read 4 off)).program = .read 4 off :: [] ∧ off % 4 = 0 ∧ off < 0x40) := by
  decide

theorem witness_HostRegisterMap : 0x14 ≤ 0x14 ∧ 0x14 ≤ 0x3C := by decide

theorem witness_OtherWritesAreIgnored :
    (∀ off ∈ [0x04, 0x10, 0x14, 0x3C],
      (hostAbout opened (.write 4 off 1)).turns = .host :: [] ∧
      (hostAbout opened (.write 4 off 1)).program = .write 4 off 1 :: [] ∧ off % 4 = 0 ∧ off < 0x40 ∧
      off ≠ 0) := by decide

theorem witness_UnsupportedAccessIsRefused :
    (∀ p ∈ [(1, 4), (2, 4), (8, 0), (4, 1), (4, 0x3F), (4, 0x40)],
      (hostAbout opened (.read p.1 p.2)).turns = .host :: [] ∧
      (hostAbout opened (.read p.1 p.2)).program = .read p.1 p.2 :: [] ∧
      (hostAbout opened (.write p.1 p.2 0)).program = .write p.1 p.2 0 :: [] ∧
      (p.1 ≠ 4 ∨ p.2 % 4 ≠ 0 ∨ 0x40 ≤ p.2)) := by decide

theorem witness_PseudoInstructionsExpand :
    (hostAbout opened .wait).turns = .host :: [] ∧ (hostAbout opened .wait).program = .wait :: [] := by
  decide

theorem witness_IdleControllerDoesNothing :
    (controllerAbout opened none).turns = .controller none :: [] ∧
    (controllerAbout opened none).busy = false := by decide

theorem witness_ReceiveBufferPacking : 0 < 6 ∧ 3 < 6 ∧ 4 < 6 ∧ 5 < 6 := by decide

theorem witness_ResetTurnResetsTheBlock :
    { runs opened .enable (.prim 1) [good []] with turns := [.reset] }.turns = .reset :: [] := by decide

theorem witness_OpenSteps :
    Runs .openBus .start [] (runs State.reset .openBus .start []) ∧
    Runs .openBus .start [] (runs opened .openBus .start []) ∧
    Runs .openBus (.prim 0) [] (runs State.reset .openBus (.prim 0) []) ∧
    Runs .openBus (.prim 1) [] (runs opened .openBus (.prim 1) []) :=
  ⟨⟨rfl, rfl⟩, ⟨rfl, rfl⟩, ⟨rfl, rfl⟩, ⟨rfl, rfl⟩⟩

/-- `s` running `i` at `pos`, its transaction answered with `a` in this turn. -/
def answered (s : State) (i : Instr) (pos : Pos) (as : List Answer) (a : Answer) : State :=
  { runs s i pos as with answer := some a }

theorem witness_WriteSteps :
    Runs (.write 0x7F 0xFF 0xFF) .start [] (runs opened (.write 0x7F 0xFF 0xFF) .start []) ∧
    Runs (.write 0 0 0) (.exit .busClosed) [] (runs State.reset (.write 0 0 0) (.exit .busClosed) []) ∧
    Runs (.write 0 0 0) (.prim 0) [] (answered opened (.write 0 0 0) (.prim 0) [] (bad [])) ∧
    (answered opened (.write 0 0 0) (.prim 0) [] (bad [])).answer = some (bad []) ∧
    Runs (.write 0 0 0) (.prim 1) [good []] (runs opened (.write 0 0 0) (.prim 1) [good []]) :=
  ⟨⟨rfl, rfl⟩, ⟨rfl, rfl⟩, ⟨rfl, rfl⟩, rfl, ⟨rfl, rfl⟩⟩

theorem witness_ReadSteps :
    Runs (.read 0 0 1) .start [] (runs opened (.read 0 0 1) .start []) ∧
    Runs (.read 0 0 1) (.exit .busClosed) [] (runs State.reset (.read 0 0 1) (.exit .busClosed) []) ∧
    Runs (.read 0 0 6) (.prim 0) [] (answered opened (.read 0 0 6) (.prim 0) [] (good [1, 2, 3, 4, 5, 6])) ∧
    (answered opened (.read 0 0 6) (.prim 0) [] (good [1, 2, 3, 4, 5, 6])).answer =
      some (good [1, 2, 3, 4, 5, 6]) ∧
    (good [1, 2, 3, 4, 5, 6]).bytes.length ≤ (6 : Byte).toNat ∧
    Runs (.read 0 0 6) (.prim 1) [bad [9, 8]] (runs opened (.read 0 0 6) (.prim 1) [bad [9, 8]]) :=
  ⟨⟨rfl, rfl⟩, ⟨rfl, rfl⟩, ⟨rfl, rfl⟩, rfl, by decide, ⟨rfl, rfl⟩⟩

theorem witness_ReceivedBytesAreCommitted :
    ([1, 2, 3, 4, 5, 6] : List Byte).length ≤ 6 ∧ ([] : List Byte).length ≤ 6 ∧ 5 < 6 := by decide

theorem witness_DetectSteps :
    Runs .detect .start [] (runs State.reset .detect .start []) ∧
    Runs .detect (.prim 0) [] (runs State.reset .detect (.prim 0) []) ∧
    Runs .detect (.prim 1) [] (runs opened .detect (.prim 1) []) ∧
    Runs .detect (.prim 2) [] (answered opened .detect (.prim 2) [] (good [0x68])) ∧
    (answered opened .detect (.prim 2) [] (good [0x68])).answer = some (good [0x68]) ∧
    (good [0x68]).bytes.length ≤ 1 ∧
    Runs .detect (.prim 3) [good [0x68]] (answered opened .detect (.prim 3) [good [0x68]] (bad [])) ∧
    (answered opened .detect (.prim 3) [good [0x68]] (bad [])).answer = some (bad []) ∧
    (bad []).bytes.length ≤ 1 ∧
    Runs .detect (.prim 4) [good [0x68], bad []] (runs opened .detect (.prim 4) [good [0x68], bad []]) :=
  ⟨⟨rfl, rfl⟩, ⟨rfl, rfl⟩, ⟨rfl, rfl⟩, ⟨rfl, rfl⟩, rfl, by decide, ⟨rfl, rfl⟩, rfl, by decide, ⟨rfl, rfl⟩⟩

theorem witness_EnableSteps :
    Runs .enable .start [] (runs verifiedBlock .enable .start []) ∧
    Runs .enable (.exit .notVerified) [] (runs opened .enable (.exit .notVerified) []) ∧
    (∃ e, Runs .enable (.prim 0) [] (answered verifiedBlock .enable (.prim 0) [] (bad [])) ∧
      Config.params.cfg.enableSeq[0]? = some e ∧
      (answered verifiedBlock .enable (.prim 0) [] (bad [])).answer = some (bad [])) ∧
    (∃ e, Config.params.cfg.enableSeq[Config.params.cfg.enableSeq.length - 1]? = some e) ∧
    Runs .enable (.prim Config.params.cfg.enableSeq.length) [bad []]
      (runs verifiedBlock .enable (.prim Config.params.cfg.enableSeq.length) [bad []]) := by
  have hpos := List.length_pos_of_ne_nil enableSeq_ne_nil
  exact ⟨⟨rfl, rfl⟩, ⟨rfl, rfl⟩, ⟨_, ⟨rfl, rfl⟩, List.getElem?_eq_getElem hpos, rfl⟩,
    ⟨_, List.getElem?_eq_getElem (by omega)⟩, ⟨rfl, rfl⟩⟩

theorem witness_AxisReadSteps :
    (Instr.rdmag, Config.params.cfg.addrM, Config.params.cfg.magDataReg ||| 0x80) ∈
      [(Instr.rdacc, Config.params.cfg.addrAg, Config.params.cfg.accDataReg),
        (Instr.rdgyr, Config.params.cfg.addrAg, Config.params.cfg.gyrDataReg),
        (Instr.rdmag, Config.params.cfg.addrM, Config.params.cfg.magDataReg ||| 0x80)] ∧
    Runs .rdmag .start [] (runs verifiedBlock .rdmag .start []) ∧
    Runs .rdacc (.exit .notVerified) [] (runs opened .rdacc (.exit .notVerified) []) ∧
    Runs .rdgyr (.prim 0) [] (answered verifiedBlock .rdgyr (.prim 0) [] (good [1, 2, 3, 4, 5, 6])) ∧
    (answered verifiedBlock .rdgyr (.prim 0) [] (good [1, 2, 3, 4, 5, 6])).answer =
      some (good [1, 2, 3, 4, 5, 6]) ∧
    (good [1, 2, 3, 4, 5, 6]).bytes.length ≤ 6 ∧
    Runs .rdmag (.prim 1) [good []] (runs verifiedBlock .rdmag (.prim 1) [good []]) :=
  ⟨by simp, ⟨rfl, rfl⟩, ⟨rfl, rfl⟩, ⟨rfl, rfl⟩, rfl, by decide, ⟨rfl, rfl⟩⟩

theorem witness_UnansweredTransactionWaits :
    (runs opened (.write 1 2 3) (.prim 0) []).busy = true ∧
    (runs opened (.write 1 2 3) (.prim 0) []).seq =
      some { cmd := .write 1 2 3, pos := .prim 0, answers := [] } ∧
    (runs opened (.write 1 2 3) (.prim 0) []).answer = none ∧
    awaitsAnswer Config.params.cfg (runs opened (.write 1 2 3) (.prim 0) []) = true ∧
    awaitsAnswer Config.params.cfg (runs opened .detect (.prim 3) [good [0x68]]) = true :=
  ⟨rfl, rfl, rfl, rfl, rfl⟩

/-- `s` with the host about to submit `i`, and `ts` to follow. -/
def commanding (s : State) (i : Instr) (ts : List Turn) : State :=
  { s with program := [submitOp i], turns := .host :: ts }

theorem witness_OpenRunOpensTheBus :
    (commanding State.reset .openBus [.controller none, .controller none, .controller none]).busy = false ∧
    (commanding State.reset .openBus []).program = submitOp .openBus :: [] ∧
    (commanding State.reset .openBus []).busOpen = false ∧
    (commanding State.reset .openBus [.controller none, .controller none, .controller none]).turns =
      .host :: .controller none :: .controller none :: .controller none :: [] ∧
    (commanding opened .openBus []).busOpen = true ∧ (commanding opened .openBus []).busy = false ∧
    (commanding opened .openBus [.controller none, .controller none]).turns =
      .host :: .controller none :: .controller none :: [] := ⟨rfl, rfl, rfl, rfl, rfl, rfl, rfl⟩

/-- The turns of a command of one transaction, answered with `a`. -/
def oneAnswer (a : Answer) : List Turn := [.controller none, .controller (some a), .controller none]

theorem witness_WriteRunWritesOneRegister :
    (commanding opened (.write 0x7F 0xFF 0xFF) (oneAnswer (bad []))).busy = false ∧
    (commanding opened (.write 0x7F 0xFF 0xFF) (oneAnswer (bad []))).busOpen = true ∧
    (commanding opened (.write 0x7F 0xFF 0xFF) (oneAnswer (bad []))).program =
      submitOp (.write 0x7F 0xFF 0xFF) :: [] ∧
    (commanding opened (.write 0x7F 0xFF 0xFF) (oneAnswer (bad []))).turns =
      .host :: .controller none :: .controller (some (bad [])) :: .controller none :: [] :=
  ⟨rfl, rfl, rfl, rfl⟩

theorem witness_ReadRunReceivesBytes :
    (1 ≤ (1 : Byte).toNat ∧ (1 : Byte).toNat ≤ 6 ∧ (good []).bytes.length ≤ (1 : Byte).toNat) ∧
    (1 ≤ (6 : Byte).toNat ∧ (6 : Byte).toNat ≤ 6 ∧
      (good [1, 2, 3, 4, 5, 6]).bytes.length ≤ (6 : Byte).toNat) ∧
    (commanding opened (.read 0 0 6) (oneAnswer (good [1, 2, 3, 4, 5, 6]))).busy = false ∧
    (commanding opened (.read 0 0 6) (oneAnswer (good [1, 2, 3, 4, 5, 6]))).busOpen = true ∧
    (commanding opened (.read 0 0 6) (oneAnswer (good [1, 2, 3, 4, 5, 6]))).program =
      submitOp (.read 0 0 6) :: [] ∧
    (commanding opened (.read 0 0 6) (oneAnswer (good [1, 2, 3, 4, 5, 6]))).turns =
      .host :: .controller none :: .controller (some (good [1, 2, 3, 4, 5, 6])) :: .controller none :: [] :=
  ⟨by decide, by decide, rfl, rfl, rfl, rfl⟩

theorem witness_ClosedBusRunsNoTransaction :
    (Instr.write 0 0 0).wf = true ∧ opCode (.write 0 0 0) = 2 ∧
    (Instr.read 0 0 6).wf = true ∧ opCode (.read 0 0 6) = 3 ∧
    (commanding State.reset (.read 0 0 6) [.controller none, .controller none]).busy = false ∧
    (commanding State.reset (.read 0 0 6) [.controller none, .controller none]).busOpen = false ∧
    (commanding State.reset (.read 0 0 6) []).program = submitOp (.read 0 0 6) :: [] ∧
    (commanding State.reset (.read 0 0 6) [.controller none, .controller none]).turns =
      .host :: .controller none :: .controller none :: [] :=
  ⟨rfl, rfl, rfl, rfl, rfl, rfl, rfl, rfl⟩

/-- The turns of a DETECT whose reads are answered with `a` and `m`, after `lead`. -/
def detectTurns (lead : List Turn) (a m : Answer) : List Turn :=
  lead ++ [.controller none, .controller (some a), .controller (some m), .controller none]

theorem witness_DetectRunChecksBothIdentities :
    (good [0x68]).bytes.length ≤ 1 ∧ (bad []).bytes.length ≤ 1 ∧
    (commanding State.reset .detect []).busy = false ∧
    (commanding State.reset .detect []).program = submitOp .detect :: [] ∧
    (commanding State.reset .detect []).busOpen = false ∧
    (commanding State.reset .detect
        (detectTurns [.controller none, .controller none] (good [0x68]) (bad []))).turns =
      .host :: .controller none :: .controller none :: .controller none :: .controller (some (good [0x68])) ::
        .controller (some (bad [])) :: .controller none :: [] ∧
    (commanding opened .detect []).busOpen = true ∧ (commanding opened .detect []).busy = false ∧
    (commanding opened .detect (detectTurns [.controller none] (good [0x68]) (bad []))).turns =
      .host :: .controller none :: .controller none :: .controller (some (good [0x68])) ::
        .controller (some (bad [])) :: .controller none :: [] :=
  ⟨by decide, by decide, rfl, rfl, rfl, rfl, rfl, rfl, rfl⟩

/-- One answer for every configuration write. -/
def enableAnswers : List Answer := List.replicate Config.params.cfg.enableSeq.length (bad [])

/-- A Verified block about to be given ENABLE, every write answered. -/
def enabling : State :=
  commanding verifiedBlock .enable
    (.controller none :: (enableAnswers.map (fun a => Turn.controller (some a)) ++ [.controller none]))

theorem witness_EnableRunWritesTheSequence :
    enableAnswers.length = Config.params.cfg.enableSeq.length ∧ enabling.busy = false ∧
    enabling.verified = true ∧ enabling.program = submitOp .enable :: [] ∧
    enabling.turns = .host :: .controller none ::
      (enableAnswers.map (fun a => Turn.controller (some a)) ++ .controller none :: []) :=
  ⟨by simp [enableAnswers], rfl, rfl, rfl, rfl⟩

theorem witness_AxisRunReadsOneSample :
    (Instr.rdacc, Config.params.cfg.addrAg, Config.params.cfg.accDataReg) ∈ axisReads Config.params.cfg ∧
    (Instr.rdgyr, Config.params.cfg.addrAg, Config.params.cfg.gyrDataReg) ∈ axisReads Config.params.cfg ∧
    (Instr.rdmag, Config.params.cfg.addrM, magRegByte Config.params.cfg) ∈ axisReads Config.params.cfg ∧
    (good [1, 2, 3, 4, 5, 6]).bytes.length ≤ 6 ∧ (bad []).bytes.length ≤ 6 ∧
    (commanding verifiedBlock .rdmag (oneAnswer (bad []))).busy = false ∧
    (commanding verifiedBlock .rdmag (oneAnswer (bad []))).verified = true ∧
    (commanding verifiedBlock .rdmag (oneAnswer (bad []))).program = submitOp .rdmag :: [] ∧
    (commanding verifiedBlock .rdmag (oneAnswer (bad []))).turns =
      .host :: .controller none :: .controller (some (bad [])) :: .controller none :: [] :=
  ⟨by simp [axisReads], by simp [axisReads], by simp [axisReads], by decide, by decide, rfl, rfl, rfl, rfl⟩

theorem witness_UnverifiedGuardRunsNothing :
    Instr.rdgyr ∈ [Instr.enable, Instr.rdacc, Instr.rdgyr, Instr.rdmag] ∧
    (commanding opened .rdgyr [.controller none, .controller none]).busy = false ∧
    (commanding opened .rdgyr [.controller none, .controller none]).verified = false ∧
    (commanding opened .rdgyr [.controller none, .controller none]).program = submitOp .rdgyr :: [] ∧
    (commanding opened .rdgyr [.controller none, .controller none]).turns =
      .host :: .controller none :: .controller none :: [] := ⟨by decide, rfl, rfl, rfl, rfl⟩

/-- The instruction that receives runs, one that does not runs, one is accepted: each gives a next state. -/
theorem witness_CommandsWriteOnlyTheirFields :
    (∃ t, exec .rdacc (runs verifiedBlock .rdacc (.prim 1) [good [1]]) = .next t) ∧
    (∃ t, exec .enable (runs opened .enable (.exit .notVerified) []) = .next t) ∧
    (∃ t, exec .detect opened = .next t) ∧ receives .enable = false ∧
    (runs opened .enable (.exit .notVerified) []).busy = true ∧ opened.busy = false ∧
    Instr.detect.wf = true :=
  ⟨⟨_, rfl⟩, ⟨_, rfl⟩, ⟨_, rfl⟩, rfl, rfl, rfl, rfl⟩

theorem witness_ResultsStayUntilCompletion :
    ∃ t, (controllerAbout (runs opened .detect (.prim 1) []) none).turnNow ≠ .reset ∧
      (controllerAbout (runs opened .detect (.prim 1) []) none).busy = true ∧
      step (controllerAbout (runs opened .detect (.prim 1) []) none) = .next t ∧ t.busy = true :=
  ⟨_, by decide, rfl, rfl, rfl⟩

theorem witness_HostTouchesTheBlockOnlyByCmd :
    ∃ t, (hostAbout opened (.write 4 4 1)).turnNow = .host ∧
      step (hostAbout opened (.write 4 4 1)) = .next t ∧
      (∀ size v ops, (hostAbout opened (.write 4 4 1)).program ≠ .write size 0 v :: ops) :=
  ⟨_, rfl, rfl, by simp [hostAbout]⟩

theorem witness_OverrunFlag :
    ∃ t, step (submitting (runs opened .detect (.prim 1) []) 6) = .next t ∧
      (submitting (runs opened .detect (.prim 1) []) 6).turnNow ≠ .reset ∧
      (submitting (runs opened .detect (.prim 1) []) 6).turnNow = .host ∧
      (submitting (runs opened .detect (.prim 1) []) 6).program = .write 4 0 6 :: [] :=
  ⟨_, rfl, by decide, rfl, rfl⟩

theorem witness_LogGrowsByOneEventAtMost :
    ∃ t, (controllerAbout (runs State.reset .openBus (.prim 0) []) none).turnNow ≠ .reset ∧
      step (controllerAbout (runs State.reset .openBus (.prim 0) []) none) = .next t :=
  ⟨_, by decide, rfl⟩

theorem witness_TransportIgnoresVerified :
    ∃ t, isTransport (.read 0 0 6) = true ∧
      exec (.read 0 0 6) (answered opened (.read 0 0 6) (.prim 0) [] (good [1])) = .next t := ⟨_, rfl, rfl⟩

/-- Three controller turns, each answered. -/
def threeAnswered : List Turn := List.replicate 3 (.controller (some (good [])))

/-- Six controller turns, every second one answered, the host polling in between. -/
def everySecond : List Turn :=
  [.host, .controller none, .host, .controller (some (good [])), .controller none, .host] ++
    [.controller (some (good [])), .controller none, .controller (some (good [])), .host]

/-- A block on whose closed bus OPEN was just accepted. -/
def opening (ts : List Turn) : State := { runs State.reset .openBus .start [] with turns := ts }

theorem opening_inv (ts : List Turn) : BlockInv (opening ts) where
  verified_busOpen := by intro h; cases h
  busy_iff := rfl
  rxcnt_le := Nat.zero_le 6
  seq_ok := by intro q h; cases h; rfl
  log_ok := rfl

/-- A block whose OPEN completes in the controller's next step. -/
def completing : State := controllerAbout (runs opened .openBus (.prim 1) []) none

theorem completing_inv : BlockInv completing where
  verified_busOpen := by intro _; rfl
  busy_iff := rfl
  rxcnt_le := Nat.zero_le 6
  seq_ok := by intro q h; cases h; rfl
  log_ok := by decide

theorem witness_EveryStepKeepsTheInvariant :
    ∃ t, BlockInv completing ∧ step completing = .next t := ⟨_, completing_inv, rfl⟩

theorem witness_ReachableStateInvariants : BlockInv completing ∧ BlockInv (opening []) :=
  ⟨completing_inv, opening_inv []⟩

theorem witness_SupportedHostNeverStops :
    BlockInv completing ∧ programSupported completing = true ∧
    programSupported (hostAbout opened (.read 4 0x3C)) = true := ⟨completing_inv, rfl, rfl⟩

theorem witness_DetectionIsMonotonic :
    (∃ t, (controllerAbout (runs verifiedBlock .detect (.prim 4) [bad [], bad []]) none).turnNow ≠ .reset ∧
      step (controllerAbout (runs verifiedBlock .detect (.prim 4) [bad [], bad []]) none) = .next t ∧
      (controllerAbout (runs verifiedBlock .detect (.prim 4) [bad [], bad []]) none).verified = true) ∧
    (∃ t, Runs .detect (.prim 4) [bad [], good [0x3D]]
        (runs verifiedBlock .detect (.prim 4) [bad [], good [0x3D]]) ∧
      exec .detect (runs verifiedBlock .detect (.prim 4) [bad [], good [0x3D]]) = .next t) :=
  ⟨⟨_, by decide, rfl, rfl⟩, ⟨_, ⟨rfl, rfl⟩, rfl⟩⟩

/-- The DETECT both of whose identity reads gave the expected byte, about to complete. -/
def matching : State :=
  controllerAbout (runs opened .detect (.prim 4)
    [good [Config.params.cfg.idAgVal], good [Config.params.cfg.idMVal]]) none

theorem witness_OnlyMatchingDetectVerifies :
    ∃ t, matching.turnNow ≠ .reset ∧ step matching = .next t ∧ t.verified ≠ matching.verified :=
  ⟨_, by simp [matching, controllerAbout, State.turnNow], rfl, by
    simp [idMatch, good, matching, controllerAbout, runs, opened, State.reset]⟩

theorem witness_BusOpenChangesOnlyAtBusOpen :
    ∃ t, (controllerAbout (runs State.reset .detect (.prim 0) []) none).turnNow ≠ .reset ∧
      step (controllerAbout (runs State.reset .detect (.prim 0) []) none) = .next t ∧
      t.busOpen ≠ (controllerAbout (runs State.reset .detect (.prim 0) []) none).busOpen :=
  ⟨_, by decide, rfl, by decide⟩

theorem witness_CommandsCompleteWithTheirCodes :
    ∃ t, BlockInv completing ∧ completing.seq = some { cmd := .openBus, pos := .prim 1, answers := [] } ∧
      exec .openBus completing = .next t ∧ t.busy = false := ⟨_, completing_inv, rfl, rfl, rfl⟩

theorem witness_SequencerNeverGoesBack :
    ∃ t, (runs opened .detect (.prim 1) []).busy = true ∧
      (runs opened .detect (.prim 1) []).seq = some { cmd := .detect, pos := .prim 1, answers := [] } ∧
      exec .detect (runs opened .detect (.prim 1) []) = .next t ∧
      t.seq = some { cmd := .detect, pos := .prim 2, answers := [] } := ⟨_, rfl, rfl, rfl, rfl⟩

/-- The block of `opening`, its host waiting for the command. -/
def polling (ts : List Turn) : State := { opening ts with program := [.wait, .read 4 0x3C] }

theorem polling_inv (ts : List Turn) : BlockInv (polling ts) where
  verified_busOpen := by intro h; cases h
  busy_iff := rfl
  rxcnt_le := Nat.zero_le 6
  seq_ok := by intro q h; cases h; rfl
  log_ok := rfl

theorem witness_AnsweredCommandsComplete :
    (BlockInv (opening threeAnswered) ∧ programSupported (opening threeAnswered) = true ∧
      (opening threeAnswered).busy = true ∧
      (opening threeAnswered).seq = some { cmd := .openBus, pos := .start, answers := [] } ∧
      (∀ t ∈ threeAnswered, t ≠ .reset) ∧ timeoutMet 0 0 threeAnswered = true ∧
      stepsLeft Config.params.cfg (opening threeAnswered) * (0 + 1) ≤ controllerTurns threeAnswered ∧
      (opening threeAnswered).turns = threeAnswered ++ []) ∧
    (BlockInv (polling everySecond) ∧ programSupported (polling everySecond) = true ∧
      (polling everySecond).busy = true ∧
      (polling everySecond).seq = some { cmd := .openBus, pos := .start, answers := [] } ∧
      (∀ t ∈ everySecond, t ≠ .reset) ∧ timeoutMet 1 0 everySecond = true ∧
      stepsLeft Config.params.cfg (polling everySecond) * (1 + 1) ≤ controllerTurns everySecond ∧
      (polling everySecond).turns = everySecond ++ []) :=
  ⟨⟨opening_inv _, rfl, rfl, rfl, by decide, rfl, Nat.le_refl 3, rfl⟩,
    ⟨polling_inv _, rfl, rfl, rfl, by decide, rfl, Nat.le_refl 6, rfl⟩⟩

theorem witness_UnansweredCommandHangs :
    (runs opened .detect (.prim 2) []).busy = true ∧
    awaitsAnswer Config.params.cfg (runs opened .detect (.prim 2) []) = true ∧
    { runs opened .detect (.prim 2) [] with turns := [.controller none, .controller none] }.turns =
      List.replicate 2 (.controller none) ++ [] := ⟨rfl, rfl, rfl⟩

theorem witness_SampleValues :
    { verifiedBlock with rxcnt := 6 }.valueValid (4 + 1) = true ∧
    { verifiedBlock with rxcnt := 6 }.sampleValid = true := by decide

theorem witness_EnableSequenceWellFormed :
    enableSeqWf { Config.tc with enableSeq := [] }.enableSeq = false := by decide

theorem witness_AssemblerRefusesOutOfRange :
    assembleCommand "READ" [0x7F, 0xFF, 6] = some (.read 0x7F 0xFF 6) ∧
    assembleCommand "READ" [0, 0, 1] = some (.read 0 0 1) ∧
    assembleCommand "WRITE" [0x7F, 0xFF, 0xFF] = some (.write 0x7F 0xFF 0xFF) := by decide

end Sys2Proof.Tests
end

section
/-! SUPPORT. The obligations of 00_scope.md: the block's parameters and the free schedule. -/

namespace Sys2Proof

/-- The well-formedness check says what R9 and R143 ask of the parameters. -/
theorem Config.wf_iff (c : Config) : c.wf = true ↔ c.addrAg ≠ c.addrM ∧ enableSeqWf c.enableSeq = true := by
  simp [Config.wf]

/-- A configuration is taken exactly when the check passes (R143; log 1). -/
theorem Config.checked_isSome (c : Config) : (Config.checked c).isSome = c.wf := by
  unfold Config.checked
  split
  next h => exact h.symm
  next h => exact (eq_false_of_ne_true h).symm

/-- Settles O57: the opaque parameters carry the proof that the check passes, and the check is the
conjunction of R9 and R143. -/
theorem parametersAreWellFormed : Obligations.ParametersAreWellFormed := by
  obtain ⟨hAddr, hSeq⟩ := (Config.wf_iff Config.params.cfg).mp Config.params.wf
  refine ⟨hAddr, hSeq, fun c => ?_⟩
  rw [Config.checked_isSome]
  exact Config.wf_iff c

end Sys2Proof

namespace Sys2Proof.Machine

/-- With no turn listed it is the turn of the agent the free schedule names (log 4). -/
theorem State.turnNow_of_turns_nil {s : State} (h : s.turns = []) : s.turnNow = Config.freeTurn s.tick := by
  simp [State.turnNow, h]

/-- With no turn listed, taking the turn moves the counter on and brings the free turn's answer (log 4). -/
theorem State.turnTaken_of_turns_nil {s : State} (h : s.turns = []) :
    s.turnTaken = { s with tick := s.tick + 1, answer := offeredBy (Config.freeTurn s.tick) } := by
  simp [State.turnTaken, h]

/-- Settles O8: a step is that of the agent whose turn it is on the state with the turn taken, and with no
turn listed both come from the free schedule. -/
theorem freeTurnWhenNoneIsListed : Obligations.FreeTurnWhenNoneIsListed := by
  intro s h
  rw [step, stepWith, State.turnNow_of_turns_nil h, State.turnTaken_of_turns_nil h]

end Sys2Proof.Machine
end

section
/-! SUPPORT. What one step of a running command and one step of the machine can write: the facts about
procedures, completions and primitives that the obligations of 10_state.md share. -/

namespace Sys2Proof.Machine

/-! ### Procedures and completions -/

/-- BusOpen stands in the procedures of OPEN and DETECT only, and there it comes first (R101, R131). -/
theorem procedure_busOpen {c : Config} {i : Instr} {k : Nat} (h : (procedure c i)[k]? = some .busOpen) :
    k = 0 ∧ (i = .openBus ∨ i = .detect) := by
  cases i with
  | openBus => exact ⟨by simpa [procedure, openPrims, List.getElem?_singleton] using h, .inl rfl⟩
  | detect =>
    rcases k with _ | _ | _ | _ | k
    · exact ⟨rfl, .inr rfl⟩
    all_goals simp [procedure, detectPrims] at h
  | _ => simp [procedure, writePrims, readPrims, enablePrims, axisPrims, List.getElem?_singleton] at h

/-- A receiving command's completion writes the buffer from its one answer (R104). -/
theorem rxDone_cases {n : Nat} {as : List Answer} {d : Completion} (h : rxDone n as = some d) :
    ∃ a, as = [a] ∧ d.rx = some a.bytes ∧ d.idm = none := by
  unfold rxDone at h
  split at h <;> cases h
  exact ⟨_, rfl, rfl, rfl⟩

/-- DETECT's completion writes the match bits of its two answers (R131, R132). -/
theorem detectDone_cases {c : Config} {as : List Answer} {d : Completion} (h : detectDone c as = some d) :
    ∃ a m, as = [a, m] ∧ d.rx = none ∧ d.idm = some (idMatch a c.idAgVal, idMatch m c.idMVal) := by
  unfold detectDone at h
  split at h <;> cases h
  exact ⟨_, _, rfl, rfl, rfl⟩

/-- What a completion writes beside ERR: nothing; a receiving command's buffer; DETECT's match bits. -/
theorem doneOf_cases {c : Config} {i : Instr} {as : List Answer} {d : Completion}
    (h : doneOf c i as = some d) :
    (d.rx = none ∧ d.idm = none) ∨
    (receives i = true ∧ ∃ a, as = [a] ∧ d.rx = some a.bytes ∧ d.idm = none) ∨
    (i = .detect ∧ ∃ a m, as = [a, m] ∧ d.rx = none ∧
      d.idm = some (idMatch a c.idAgVal, idMatch m c.idMVal)) := by
  cases i with
  | openBus => rcases as with _ | _ <;> cases h; exact .inl ⟨rfl, rfl⟩
  | write => rcases as with _ | ⟨_, _ | _⟩ <;> cases h; exact .inl ⟨rfl, rfl⟩
  | enable => cases h; exact .inl ⟨rfl, rfl⟩
  | detect => exact .inr (.inr ⟨rfl, detectDone_cases h⟩)
  | read | rdacc | rdgyr | rdmag => exact .inr (.inl ⟨rfl, rxDone_cases h⟩)

/-- R132's match, read as the answer it asks for. -/
theorem idMatch_iff {a : Answer} {v : Byte} : idMatch a v = true ↔ a.ok = true ∧ a.bytes = [v] := by
  obtain ⟨ok, bytes⟩ := a
  rcases bytes with _ | ⟨b, _ | ⟨b', bs⟩⟩ <;> simp [idMatch]

/-! ### What a primitive writes -/

/-- A primitive writes the sequencer, the log and BUS_OPEN only, and BUS_OPEN only as BusOpen (R25). -/
@[simp] theorem runPrim_frame (p : Prim) (k : Nat) (q : Sequencer) (s : State) :
    (runPrim p k q s).busy = s.busy ∧ (runPrim p k q s).verified = s.verified ∧
    (runPrim p k q s).ovr = s.ovr ∧ (runPrim p k q s).err = s.err ∧
    (runPrim p k q s).idmAg = s.idmAg ∧ (runPrim p k q s).idmM = s.idmM ∧
    (runPrim p k q s).lastOp = s.lastOp ∧ (runPrim p k q s).rxcnt = s.rxcnt ∧
    (runPrim p k q s).rxbuf = s.rxbuf ∧ (runPrim p k q s).busOpen = (s.busOpen || p == .busOpen) := by
  rcases runPrim_cases p k q s with ⟨rfl, h⟩ | ⟨_, rfl, h⟩ | ⟨_, ⟨_, _, _, rfl⟩, h⟩ |
    ⟨_, ⟨_, _, _, rfl⟩, h⟩ | ⟨_, _, _, _, rfl, _, h⟩ | ⟨_, _, _, _, rfl, _, h⟩ <;> simp [h]

/-- A primitive waits in place or moves the sequencer on by one and logs one event, which is EvOpen
exactly for BusOpen and keeps R62's limit. -/
theorem runPrim_wait_or_log (p : Prim) (k : Nat) (q : Sequencer) (s : State) :
    (p ≠ .busOpen ∧ runPrim p k q s = s) ∨
    ∃ e as, (runPrim p k q s).log = s.log ++ [e] ∧ eventOk e = true ∧ (e = .evOpen ↔ p = .busOpen) ∧
      (runPrim p k q s).seq = some { q with pos := .prim (k + 1), answers := q.answers ++ as } ∧
      answersFit [p] as = true := by
  rcases runPrim_cases p k q s with ⟨rfl, h⟩ | ⟨_, rfl, h⟩ | ⟨_, ⟨_, _, _, rfl⟩, h⟩ |
    ⟨_, ⟨_, _, _, rfl⟩, h⟩ | ⟨_, _, _, a, rfl, _, h⟩ | ⟨_, _, n, a, rfl, _, h⟩ <;> rw [h]
  · exact .inr ⟨_, [], rfl, rfl, by simp, by simp, rfl⟩
  · exact .inr ⟨_, [], rfl, rfl, by simp, by simp, rfl⟩
  · exact .inl ⟨by simp, rfl⟩
  · exact .inl ⟨by simp, rfl⟩
  · exact .inr ⟨_, [{ ok := a.ok, bytes := [] }], rfl, rfl, by simp, rfl, rfl⟩
  · exact .inr ⟨_, [{ ok := a.ok, bytes := a.bytes.take n }], rfl, by simp [eventOk], by simp, rfl,
      by simp [answersFit]⟩

/-! ### The same block -/

theorem sameBlock_turnTaken (s : State) : SameBlock s.turnTaken s := by constructor <;> simp

theorem sameBlock_programRest (s : State) (ops : List HostOp) : SameBlock (s.programRest ops) s := by
  constructor <;> simp

theorem sameBlock_hostSees (s : State) (v : Word) : SameBlock (s.hostSees v) s := by
  constructor <;> simp

theorem SameBlock.trans {s t u : State} (h : SameBlock s t) (h' : SameBlock t u) : SameBlock s u where
  busy := h.busy.trans h'.busy
  verified := h.verified.trans h'.verified
  busOpen := h.busOpen.trans h'.busOpen
  ovr := h.ovr.trans h'.ovr
  err := h.err.trans h'.err
  idmAg := h.idmAg.trans h'.idmAg
  idmM := h.idmM.trans h'.idmM
  lastOp := h.lastOp.trans h'.lastOp
  rxcnt := h.rxcnt.trans h'.rxcnt
  rxbuf := h.rxbuf.trans h'.rxbuf
  seq := h.seq.trans h'.seq
  log := h.log.trans h'.log

/-! ### What a step of the machine does to the block -/

/-- The host's next operation writes `w` to CMD. -/
def WritesCmd (w : Word) (s : State) : Prop := ∃ ops, s.program = .write 4 0 w :: ops

/-- R85: what a write of CMD makes of the block. -/
def Submitted (w : Word) (s t : State) : Prop :=
  (s.busy = true ∧ t = dropSubmission s) ∨ (s.busy = false ∧ t = reject w s) ∨
    (s.busy = false ∧ ∃ i : Instr, i.wf = true ∧ t = accept i s)

/-- Every step but reset leaves the block, submits a word, or takes a step of the running command. -/
theorem step_block_cases {s t : State} (h : step s = .next t) (hr : s.turnNow ≠ .reset) :
    ((∀ w, s.turnNow = .host → ¬ WritesCmd w s) ∧ SameBlock t s) ∨
    (∃ w u, s.turnNow = .host ∧ WritesCmd w s ∧ SameBlock u s ∧ Submitted w u t) ∨
    (∃ q, (∃ a, s.turnNow = .controller a) ∧ s.busy = true ∧ s.seq = some q ∧
      exec q.cmd s.turnTaken = .next t) := by
  rcases step_cases h with ⟨hn, h⟩ | ⟨a, hn, h⟩ | ⟨hn, _⟩
  · have taken := sameBlock_turnTaken s
    have rest := fun ops => (sameBlock_programRest s.turnTaken ops).trans taken
    rcases hostStep_cases h with ⟨hp, rfl⟩ | ⟨_, off, ops, hp, _, rfl⟩ | ⟨_, off, _, ops, hp, _, h0, rfl⟩ |
      ⟨size, w, ops, hp, hs, h⟩ | ⟨ops, hp, _, rfl⟩ | ⟨ops, hp, _, rfl⟩ <;>
      rw [State.turnTaken_program] at hp
    · exact .inl ⟨by simp [WritesCmd, hp], taken⟩
    · exact .inl ⟨by simp [WritesCmd, hp], (sameBlock_hostSees _ _).trans (rest ops)⟩
    · exact .inl ⟨by simp [WritesCmd, hp, h0], rest ops⟩
    · obtain rfl : size = 4 := by simp [supported] at hs; exact hs
      refine .inr (.inl ⟨w, _, hn, ⟨ops, hp⟩, rest ops, ?_⟩)
      rcases submit_cases h with drop | ⟨hb, _, ht⟩ | ⟨hb, i, hi, ht⟩
      · exact .inl drop
      · exact .inr (.inl ⟨hb, ht⟩)
      · exact .inr (.inr ⟨hb, i, wf_of_decode hi, ht⟩)
    · exact .inl ⟨by simp [WritesCmd, hp], (sameBlock_hostSees _ _).trans taken⟩
    · exact .inl ⟨by simp [WritesCmd, hp], (sameBlock_hostSees _ _).trans (rest ops)⟩
  · rcases controllerStep_cases h with ⟨_, rfl⟩ | ⟨hb, q, hq, h⟩
    · exact .inl ⟨by simp [hn], sameBlock_turnTaken s⟩
    · exact .inr (.inr ⟨q, ⟨a, hn⟩, by simpa using hb, by simpa using hq, h⟩)
  · exact absurd hn hr

/-- A submission writes OVR, LAST_OP, ERR, BUSY and the sequencer only, and OVR becomes the old BUSY (R26). -/
theorem Submitted.frame {w : Word} {s t : State} (h : Submitted w s t) :
    t.ovr = s.busy ∧ t.log = s.log ∧ t.busOpen = s.busOpen ∧ t.verified = s.verified := by
  rcases h with ⟨hb, rfl⟩ | ⟨hb, rfl⟩ | ⟨hb, i, _, rfl⟩ <;> simp [hb]

end Sys2Proof.Machine
end

section
/-! SUPPORT. The invariant of the block (10_state.md R37): its parts, each said once, and that every operation
keeps it. -/

namespace Sys2Proof.Machine

/-! ### The answers of a command -/

/-- Answers that fit two parts of a procedure fit the whole. -/
theorem answersFit_append {ps ps' : List Prim} {as as' : List Answer} (h : answersFit ps as = true)
    (h' : answersFit ps' as' = true) : answersFit (ps ++ ps') (as ++ as') = true := by
  induction ps generalizing as with
  | nil => cases as <;> simp_all [answersFit]
  | cons p ps ih =>
    cases p with
    | busOpen | delay => exact ih h
    | busWrite | busRead =>
      cases as with
      | nil => cases h
      | cons a as =>
        rw [answersFit, Bool.and_eq_true] at h
        exact Bool.and_eq_true_iff.mpr ⟨h.1, ih h.2⟩

/-- A receiving command is one bus read, of at most 6 bytes if the command has a word (R83, R103, R150). -/
theorem procedure_of_receives {c : Config} {i : Instr} (h : receives i = true) (hw : i.wf = true) :
    ∃ dev rb n, procedure c i = [.busRead dev rb n] ∧ n ≤ 6 := by
  cases i with
  | read dev ra cnt => exact ⟨_, _, _, rfl, (by simpa [Instr.wf, readCountOk] using hw : _ ∧ _).2⟩
  | rdacc | rdgyr | rdmag => exact ⟨_, _, _, rfl, Nat.le_refl 6⟩
  | openBus | write | detect | enable => cases h

/-- A completion commits at most 6 bytes (R32, R62). -/
theorem doneOf_rx_length_le {c : Config} {i : Instr} {as : List Answer} {d : Completion} {bytes : List Byte}
    (h : doneOf c i as = some d) (hw : i.wf = true) (hf : answersFit (procedure c i) as = true)
    (hb : d.rx = some bytes) : bytes.length ≤ 6 := by
  rcases doneOf_cases h with ⟨hr, _⟩ | ⟨hi, a, rfl, hr, _⟩ | ⟨_, _, _, _, hr, _⟩
  · simp [hr] at hb
  · obtain ⟨dev, rb, n, hp, hn⟩ := procedure_of_receives (c := c) hi hw
    obtain rfl : a.bytes = bytes := by simpa [hr] using hb
    have hlen : a.bytes.length ≤ n := by simpa [hp, answersFit] using hf
    exact hlen.trans hn
  · simp [hr] at hb

/-! ### The guard -/

theorem openIfClosed_prim {s : State} {k : Nat} (h : openIfClosed s = .prim k) :
    (k = 0 ∧ s.busOpen = false) ∨ (k = 1 ∧ s.busOpen = true) := by
  unfold openIfClosed at h
  split at h
  · exact .inr ⟨(Pos.prim.inj h).symm, ‹_›⟩
  · exact .inl ⟨(Pos.prim.inj h).symm, eq_false_of_ne_true ‹_›⟩

theorem needBusOpen_prim {s : State} {k : Nat} (h : needBusOpen s = .prim k) : k = 0 ∧ s.busOpen = true := by
  unfold needBusOpen at h
  split at h
  · exact ⟨(Pos.prim.inj h).symm, ‹_›⟩
  · cases h

theorem needVerified_prim {s : State} {k : Nat} (h : needVerified s = .prim k) :
    k = 0 ∧ s.verified = true := by
  unfold needVerified at h
  split at h
  · exact ⟨(Pos.prim.inj h).symm, ‹_›⟩
  · cases h

/-- Where a guard sends a command: a point of its procedure that needs no answers yet, with the guard true. -/
theorem guardOf_prim {c : Config} {i : Instr} {s : State} {k : Nat} (h : guardOf i s = .prim k) :
    k ≤ (procedure c i).length ∧ answersFit ((procedure c i).take k) [] = true ∧ guardHolds i k s = true := by
  cases i with
  | openBus | detect =>
    obtain ⟨rfl, hb⟩ | ⟨rfl, hb⟩ := openIfClosed_prim h <;>
      simp [procedure, openPrims, detectPrims, answersFit, guardHolds, hb]
  | write | read =>
    obtain ⟨rfl, hb⟩ := needBusOpen_prim h
    exact ⟨Nat.zero_le _, rfl, hb⟩
  | enable | rdacc | rdgyr | rdmag =>
    obtain ⟨rfl, hv⟩ := needVerified_prim h
    exact ⟨Nat.zero_le _, rfl, hv⟩

/-- A guarded command stands before BusOpen exactly while the bus is closed. -/
theorem guardHolds_busOpen_iff {c : Config} {i : Instr} {k : Nat} {p : Prim} {s : State}
    (hg : guardHolds i k s = true) (hv : s.verified = true → s.busOpen = true)
    (hp : (procedure c i)[k]? = some p) : s.busOpen = true ↔ p ≠ .busOpen := by
  constructor
  · rintro hb rfl
    obtain ⟨rfl, rfl | rfl⟩ := procedure_busOpen hp <;> simp [guardHolds, hb] at hg
  · intro hne
    have not_first : procedure c i = .busOpen :: (procedure c i).tail → k ≠ 0 := by
      rintro h rfl
      rw [h] at hp
      exact hne (by simpa using hp.symm)
    cases i with
    | openBus | detect => simpa [guardHolds, not_first rfl] using hg
    | write | read => exact hg
    | enable | rdacc | rdgyr | rdmag => exact hv hg

/-- On an open bus the guard still holds one primitive on. -/
theorem guardHolds_succ {i : Instr} {k : Nat} {s t : State} (h : guardHolds i k s = true)
    (hb : t.busOpen = true) (hv : t.verified = s.verified) : guardHolds i (k + 1) t = true := by
  cases i <;> simp_all [guardHolds]

/-! ### The sequencer's part of the invariant -/

/-- It reads LAST_OP, BUS_OPEN and VERIFIED of the state only. -/
theorem seqOk_congr {c : Config} {q : Sequencer} {s t : State} (hl : t.lastOp = s.lastOp)
    (hb : t.busOpen = s.busOpen) (hv : t.verified = s.verified) : seqOk c q t = seqOk c q s := by
  unfold seqOk guardHolds
  rw [hl, hb, hv]

theorem seqOk_start_iff {c : Config} {q : Sequencer} {s : State} (h : q.pos = .start) :
    seqOk c q s = true ↔ q.cmd.wf = true ∧ s.lastOp = opCode q.cmd ∧ q.answers = [] := by
  simp [seqOk, h, and_assoc]

theorem seqOk_exit_iff {c : Config} {q : Sequencer} {s : State} {e : ErrCode} (h : q.pos = .exit e) :
    seqOk c q s = true ↔ q.cmd.wf = true ∧ s.lastOp = opCode q.cmd ∧ q.answers = [] ∧
      guardCode q.cmd = some e := by
  simp [seqOk, h, and_assoc]

theorem seqOk_prim_iff {c : Config} {q : Sequencer} {s : State} {k : Nat} (h : q.pos = .prim k) :
    seqOk c q s = true ↔ q.cmd.wf = true ∧ s.lastOp = opCode q.cmd ∧ k ≤ (procedure c q.cmd).length ∧
      answersFit ((procedure c q.cmd).take k) q.answers = true ∧ guardHolds q.cmd k s = true := by
  simp [seqOk, h, and_assoc]

/-- The guard check moves an accepted command to a place the invariant allows. -/
theorem seqOk_guard {c : Config} {q : Sequencer} {s : State} (h : seqOk c q s = true) (hp : q.pos = .start) :
    seqOk c { q with pos := guardOf q.cmd s } s = true := by
  obtain ⟨hw, hl, ha⟩ := (seqOk_start_iff hp).mp h
  rcases guardOf_cases q.cmd s with ⟨k, hk⟩ | ⟨e, he, hcode⟩
  · obtain ⟨hlen, hfit, hg⟩ := guardOf_prim (c := c) hk
    exact (seqOk_prim_iff hk).mpr ⟨hw, hl, hlen, ha ▸ hfit, hg⟩
  · exact (seqOk_exit_iff he).mpr ⟨hw, hl, ha, hcode⟩

/-! ### The log's part of the invariant -/

/-- The log of a closed bus is empty, and that of an open one begins with its only EvOpen. -/
theorem logOk_iff {s : State} : logOk s = true ↔ (∀ e ∈ s.log, eventOk e = true) ∧
    ((s.busOpen = false ∧ s.log = []) ∨
      (s.busOpen = true ∧ ∃ es, s.log = .evOpen :: es ∧ .evOpen ∉ es)) := by
  unfold logOk
  rw [Bool.and_eq_true, List.all_eq_true]
  refine and_congr_right fun _ => ?_
  cases s.log <;> simp [and_assoc]

/-- The log may grow by EvOpen as the bus opens, and by any other event on an open bus. -/
theorem logOk_append {s t : State} {e : Event} (h : logOk s = true) (ht : t.log = s.log ++ [e])
    (he : eventOk e = true) (hb : s.busOpen = true ↔ e ≠ .evOpen) (hb' : t.busOpen = true) :
    logOk t = true := by
  obtain ⟨hall, hlog⟩ := logOk_iff.mp h
  refine logOk_iff.mpr ⟨?_, .inr ⟨hb', ?_⟩⟩
  · rw [ht]
    intro e' hm
    rcases List.mem_append.mp hm with hm | hm
    · exact hall e' hm
    · rwa [List.mem_singleton.mp hm]
  · rcases hlog with ⟨hclosed, hnil⟩ | ⟨hopen, es, hes, hnot⟩
    · have : e = .evOpen := by simpa [hclosed] using hb
      exact ⟨[], by simp [ht, hnil, this], by simp⟩
    · have : e ≠ .evOpen := hb.mp hopen
      exact ⟨es ++ [e], by simp [ht, hes], by simp [hnot, this.symm]⟩

theorem logOk_congr {s t : State} (hl : t.log = s.log) (hb : t.busOpen = s.busOpen) : logOk t = logOk s := by
  unfold logOk
  rw [hl, hb]

/-! ### Each operation keeps the invariant -/

variable {c : Config} {s t : State}

/-- An idle block's invariant asks nothing of a sequencer. -/
theorem BlockInvUnder.seq_none (inv : BlockInvUnder c s) (hb : s.busy = false) : s.seq = none := by
  have := inv.busy_iff
  simpa [hb] using this

/-- The invariant speaks of the block only. -/
theorem BlockInvUnder.of_sameBlock (inv : BlockInvUnder c s) (h : SameBlock t s) : BlockInvUnder c t where
  verified_busOpen := by rw [h.verified, h.busOpen]; exact inv.verified_busOpen
  busy_iff := by rw [h.busy, h.seq]; exact inv.busy_iff
  rxcnt_le := by rw [h.rxcnt]; exact inv.rxcnt_le
  seq_ok q hq := by
    rw [seqOk_congr h.lastOp h.busOpen h.verified]
    exact inv.seq_ok q (h.seq ▸ hq)
  log_ok := by rw [logOk_congr h.log h.busOpen]; exact inv.log_ok

/-- Each outcome of a submission (R85). -/
theorem BlockInvUnder.after_submission {w : Word} (inv : BlockInvUnder c s) (h : Submitted w s t) :
    BlockInvUnder c t := by
  have idle := inv.seq_none
  obtain ⟨hv, hbusy, hrx, hseq, hlog⟩ := inv
  rcases h with ⟨_, rfl⟩ | ⟨hb, rfl⟩ | ⟨_, i, hw, rfl⟩
  · exact ⟨hv, hbusy, hrx, hseq, hlog⟩
  · exact ⟨hv, hbusy, hrx, by simp [idle hb], hlog⟩
  · refine ⟨hv, rfl, hrx, fun q hq => ?_, hlog⟩
    cases hq
    exact (seqOk_start_iff rfl).mpr ⟨hw, rfl, rfl⟩

/-- Block reset (R39, R200). -/
theorem blockInvUnder_reset (c : Config) (s : State) : BlockInvUnder c (blockReset s) where
  verified_busOpen h := by cases h
  busy_iff := rfl
  rxcnt_le := Nat.zero_le 6
  seq_ok q hq := by cases hq
  log_ok := rfl

/-- A guard check. -/
theorem BlockInvUnder.after_guard {q : Sequencer} (inv : BlockInvUnder c s) (hb : s.busy = true)
    (hq : s.seq = some q) (hp : q.pos = .start) : BlockInvUnder c (s.goto q (guardOf q.cmd s)) where
  verified_busOpen := inv.verified_busOpen
  busy_iff := hb
  rxcnt_le := inv.rxcnt_le
  seq_ok q' hq' := by
    cases hq'
    exact seqOk_guard (inv.seq_ok q hq) hp
  log_ok := inv.log_ok

/-- A completion, if it commits at most 6 bytes and writes match bits on an open bus only. -/
theorem BlockInvUnder.after_complete {d : Completion} (inv : BlockInvUnder c s)
    (hrx : ∀ bytes, d.rx = some bytes → bytes.length ≤ 6) (hidm : d.idm ≠ none → s.busOpen = true) :
    BlockInvUnder c (complete d s) where
  verified_busOpen h := by
    rw [complete_busOpen]
    by_cases hd : d.idm = none
    · exact inv.verified_busOpen (by simpa [hd] using h)
    · exact hidm hd
  busy_iff := rfl
  rxcnt_le := by
    rw [complete_rxcnt]
    cases hd : d.rx with
    | none => exact inv.rxcnt_le
    | some bytes =>
      have := hrx bytes hd
      simp only [Option.elim_some, BitVec.toNat_ofNat]
      omega
  seq_ok q hq := by cases hq
  log_ok := by
    rw [logOk_congr (complete_log d s) (complete_busOpen d s)]
    exact inv.log_ok

/-- A primitive of the running command. -/
theorem BlockInvUnder.after_prim {q : Sequencer} {k : Nat} {p : Prim} (inv : BlockInvUnder c s)
    (hb : s.busy = true) (hq : s.seq = some q) (hpos : q.pos = .prim k)
    (hp : (procedure c q.cmd)[k]? = some p) : BlockInvUnder c (runPrim p k q s) := by
  obtain ⟨hw, hl, _, hfit, hg⟩ := (seqOk_prim_iff hpos).mp (inv.seq_ok q hq)
  have closed_iff := guardHolds_busOpen_iff hg inv.verified_busOpen hp
  rcases runPrim_wait_or_log p k q s with ⟨_, h⟩ | ⟨e, as, hlog, he, hopen, hseq, has⟩
  · rwa [h]
  · have open_after : (runPrim p k q s).busOpen = true := by
      by_cases hpo : p = .busOpen
      · simp [hpo]
      · simp [closed_iff.mpr hpo]
    have fits : answersFit ((procedure c q.cmd).take (k + 1)) (q.answers ++ as) = true := by
      rw [List.take_add_one, hp]
      exact answersFit_append hfit has
    refine ⟨fun _ => open_after, by simp [hb, hseq], by simpa using inv.rxcnt_le, fun q' hq' => ?_,
      logOk_append inv.log_ok hlog he (closed_iff.trans (not_congr hopen.symm)) open_after⟩
    obtain rfl := Option.some.inj (hseq.symm.trans hq')
    exact (seqOk_prim_iff rfl).mpr ⟨hw, by simpa using hl,
      (List.getElem?_eq_some_iff.mp hp).1, fits, guardHolds_succ hg open_after (by simp)⟩

/-- Any step of the running command. -/
theorem BlockInvUnder.after_turn {q : Sequencer} (inv : BlockInvUnder c s) (hb : s.busy = true)
    (hq : s.seq = some q)
    (h : commandTurn (guardOf q.cmd s) (procedure c q.cmd) (doneOf c q.cmd) q s = .next t) :
    BlockInvUnder c t := by
  rcases commandTurn_cases h with ⟨hp, rfl⟩ | ⟨e, _, rfl⟩ | ⟨k, p, hp, hk, rfl⟩ | ⟨hp, d, hd, rfl⟩
  · exact inv.after_guard hb hq hp
  · exact inv.after_complete (by simp) (by simp)
  · exact inv.after_prim hb hq hp hk
  · obtain ⟨hw, _, _, hfit, hg⟩ := (seqOk_prim_iff hp).mp (inv.seq_ok q hq)
    rw [List.take_length] at hfit
    refine inv.after_complete (fun _ => doneOf_rx_length_le hd hw hfit) fun hidm => ?_
    rcases doneOf_cases hd with ⟨_, hn⟩ | ⟨_, _, _, _, hn⟩ | ⟨hi, _⟩
    · exact absurd hn hidm
    · exact absurd hn hidm
    · simpa [hi, guardHolds, procedure, detectPrims] using hg

end Sys2Proof.Machine
end

section
/-! SUPPORT. The obligations of 10_state.md about the invariant. -/

namespace Sys2Proof.Machine

/-- Settles O46: a step resets the block, leaves it, submits a word or runs the latched command, and each
keeps the invariant. -/
theorem everyStepKeepsTheInvariant : Obligations.EveryStepKeepsTheInvariant := by
  intro s t inv h
  by_cases hr : s.turnNow = .reset
  · rcases step_cases h with ⟨hn, _⟩ | ⟨_, hn, _⟩ | ⟨_, rfl⟩
    · simp [hn] at hr
    · simp [hn] at hr
    · exact blockInvUnder_reset _ _
  · rcases step_block_cases h hr with ⟨_, same⟩ | ⟨w, u, _, _, same, sub⟩ | ⟨q, _, hb, hq, hx⟩
    · exact inv.of_sameBlock same
    · exact (inv.of_sameBlock same).after_submission sub
    · have hb' : s.turnTaken.busy = true := by simpa using hb
      have hq' : s.turnTaken.seq = some q := by simpa using hq
      rw [exec_latched hb' hq'] at hx
      exact (inv.of_sameBlock (sameBlock_turnTaken s)).after_turn hb' hq' hx

end Sys2Proof.Machine
end

section
/-! SUPPORT. The obligations of 10_state.md about single steps: which step changes which field. -/

namespace Sys2Proof.Machine

/-! ### One step of the running command -/

section Turn

variable {c : Config} {q : Sequencer} {s t : State} {guard : Pos}
  (h : commandTurn guard (procedure c q.cmd) (doneOf c q.cmd) q s = .next t)
include h

/-- The acceptance fields stay (R26, R30). -/
theorem commandTurn_acceptance : t.ovr = s.ovr ∧ t.lastOp = s.lastOp := by
  rcases commandTurn_cases h with ⟨_, rfl⟩ | ⟨e, _, rfl⟩ | ⟨k, p, _, _, rfl⟩ | ⟨_, d, _, rfl⟩ <;> simp

/-- The log stays or grows by one event (R40, R63). -/
theorem commandTurn_log : t.log = s.log ∨ ∃ e, t.log = s.log ++ [e] := by
  rcases commandTurn_cases h with ⟨_, rfl⟩ | ⟨e, _, rfl⟩ | ⟨k, p, _, _, rfl⟩ | ⟨_, d, _, rfl⟩
  · exact .inl rfl
  · exact .inl (complete_log _ _)
  · rcases runPrim_wait_or_log p k q s with ⟨_, hw⟩ | ⟨e, _, hlog, _⟩
    · exact .inl (by rw [hw])
    · exact .inr ⟨e, hlog⟩
  · exact .inl (complete_log _ _)

/-- A command that does not receive leaves RXCNT and the buffer (R31, R32). -/
theorem commandTurn_rx (hi : receives q.cmd = false) : t.rxcnt = s.rxcnt ∧ t.rxbuf = s.rxbuf := by
  rcases commandTurn_cases h with ⟨_, rfl⟩ | ⟨e, _, rfl⟩ | ⟨k, p, _, _, rfl⟩ | ⟨_, d, hd, rfl⟩
  · simp
  · simp
  · simp
  · rcases doneOf_cases hd with ⟨hr, _⟩ | ⟨hr, _⟩ | ⟨_, _, _, _, hr, _⟩
    · simp [hr]
    · simp [hi] at hr
    · simp [hr]

/-- The match bits and VERIFIED stay, or DETECT completes and writes them from its two answers (R131). -/
theorem commandTurn_idm : (t.idmAg = s.idmAg ∧ t.idmM = s.idmM ∧ t.verified = s.verified) ∨
    (q.cmd = .detect ∧ q.pos = .prim 4 ∧ ∃ a m, q.answers = [a, m] ∧
      t.verified = (s.verified || (idMatch a c.idAgVal && idMatch m c.idMVal))) := by
  rcases commandTurn_cases h with ⟨_, rfl⟩ | ⟨e, _, rfl⟩ | ⟨k, p, _, _, rfl⟩ | ⟨hp, d, hd, rfl⟩
  · exact .inl (by simp)
  · exact .inl (by simp)
  · exact .inl (by simp)
  · rcases doneOf_cases hd with ⟨_, hm⟩ | ⟨_, _, _, _, hm⟩ | ⟨hi, a, m, ha, _, hm⟩
    · exact .inl (by simp [hm])
    · exact .inl (by simp [hm])
    · exact .inr ⟨hi, by simpa [hi, procedure, detectPrims] using hp, a, m, ha, by simp [hm]⟩

/-- BUS_OPEN stays, or the BusOpen of OPEN or DETECT sets it and logs EvOpen (R25). -/
theorem commandTurn_busOpen : t.busOpen = s.busOpen ∨
    (t.busOpen = true ∧ t.busy = s.busy ∧ t.log = s.log ++ [.evOpen] ∧
      (q.cmd = .openBus ∨ q.cmd = .detect)) := by
  rcases commandTurn_cases h with ⟨_, rfl⟩ | ⟨e, _, rfl⟩ | ⟨k, p, _, hp, rfl⟩ | ⟨_, d, _, rfl⟩
  · exact .inl rfl
  · exact .inl (complete_busOpen _ _)
  · by_cases hpo : p = .busOpen
    · subst hpo
      exact .inr ⟨rfl, rfl, rfl, (procedure_busOpen hp).2⟩
    · exact .inl (by simp [hpo])
  · exact .inl (complete_busOpen _ _)

/-- A sequencer that still runs has the same command and has moved forward, or nothing changed (R35). -/
theorem commandTurn_forward {i : Instr} (hg : guard = guardOf i s) (hq : s.seq = some q) {q' : Sequencer}
    (hq' : t.seq = some q') : q'.cmd = q.cmd ∧ (q.pos = q'.pos ∧ s = t ∨
      posRank (procedure c q.cmd).length q.pos < posRank (procedure c q.cmd).length q'.pos) := by
  rcases commandTurn_cases h with ⟨hp, rfl⟩ | ⟨e, _, rfl⟩ | ⟨k, p, hp, _, rfl⟩ | ⟨_, d, _, rfl⟩
  · cases hq'
    refine ⟨rfl, .inr ?_⟩
    rcases guardOf_cases i s with ⟨k, hk⟩ | ⟨e, he, _⟩
    · simp [hp, hg, hk, posRank]
    · simp [hp, hg, he, posRank]
  · simp at hq'
  · rcases runPrim_wait_or_log p k q s with ⟨_, hw⟩ | ⟨e, as, _, _, _, hseq, _⟩
    · rw [hw, hq] at hq'
      cases hq'
      exact ⟨rfl, .inl ⟨rfl, hw.symm⟩⟩
    · obtain rfl := Option.some.inj (hseq.symm.trans hq')
      exact ⟨rfl, .inr (by simp [hp, posRank])⟩
  · simp at hq'

end Turn

/-- A busy block's controller turn is one step of its latched command. -/
theorem commandTurn_of_exec {q : Sequencer} {s t : State} (hb : s.busy = true) (hq : s.seq = some q)
    (h : exec q.cmd s.turnTaken = .next t) :
    commandTurn (guardOf q.cmd s.turnTaken) (procedure Config.params.cfg q.cmd)
      (doneOf Config.params.cfg q.cmd) q s.turnTaken = .next t := by
  rwa [exec_latched (by simpa using hb) (by simpa using hq)] at h

/-! ### The obligations -/

/-- Settles O38: exec accepts, rejects, drops or takes a step of the command, each with its own frame. -/
theorem commandsWriteOnlyTheirFields : Obligations.CommandsWriteOnlyTheirFields := by
  intro i s t h
  refine ⟨exec_inputs h, ?_⟩
  rcases exec_cases h with ⟨hb, rfl⟩ | ⟨hb, q, hq, hne, rfl⟩ | ⟨hb, q, hq, rfl, hc⟩
  · split <;> simp_all
  · simp_all
  · obtain ⟨hovr, hlast⟩ := commandTurn_acceptance hc
    refine ⟨fun _ => hlast, fun _ _ => hovr, commandTurn_rx hc, fun hd => ?_, fun hd ho => ?_, by simp [hb]⟩
    · exact (commandTurn_idm hc).resolve_right fun ⟨hi, _⟩ => hd hi
    · exact (commandTurn_busOpen hc).resolve_right fun ⟨_, _, _, hi⟩ => hi.elim ho hd

/-- Settles O41: only a submission writes OVR. -/
theorem overrunFlag : Obligations.OverrunFlag := by
  intro s t h hr
  rcases step_block_cases h hr with ⟨hno, same⟩ | ⟨w, u, hn, ⟨ops, hp⟩, same, sub⟩ | ⟨q, ⟨a, hn⟩, hb, hq, hx⟩
  · exact ⟨.inl same.ovr, fun w ops hn hp => absurd ⟨ops, hp⟩ (hno w hn)⟩
  · obtain ⟨hovr, _⟩ := sub.frame
    rw [same.busy] at hovr
    exact ⟨.inr ⟨w, ops, hn, hp, hovr⟩, fun _ _ _ _ => hovr⟩
  · obtain ⟨hovr, _⟩ := commandTurn_acceptance (commandTurn_of_exec hb hq hx)
    exact ⟨.inl (by simpa using hovr), by simp [hn]⟩

/-- Settles O42: only a primitive of the running command logs, and it logs one event. -/
theorem logGrowsByOneEventAtMost : Obligations.LogGrowsByOneEventAtMost := by
  intro s t hr h
  rcases step_block_cases h hr with ⟨_, same⟩ | ⟨w, u, _, _, same, sub⟩ | ⟨q, _, hb, hq, hx⟩
  · exact .inl same.log
  · obtain ⟨_, hlog, _⟩ := sub.frame
    exact .inl (hlog.trans same.log)
  · simpa using commandTurn_log (commandTurn_of_exec hb hq hx)

/-- Settles O50: a change of VERIFIED is a completion of DETECT, whose match bits decide it. -/
theorem onlyMatchingDetectVerifies : Obligations.OnlyMatchingDetectVerifies := by
  refine ⟨rfl, fun s t hr h hne => ?_⟩
  rcases step_block_cases h hr with ⟨_, same⟩ | ⟨w, u, _, _, same, sub⟩ | ⟨q, hn, hb, hq, hx⟩
  · exact absurd same.verified hne
  · obtain ⟨_, _, _, hv⟩ := sub.frame
    exact absurd (hv.trans same.verified) hne
  · rcases commandTurn_idm (commandTurn_of_exec hb hq hx) with ⟨_, _, hv⟩ | ⟨hi, hp, a, m, ha, hv⟩
    · exact absurd (by simpa using hv) hne
    · rw [State.turnTaken_verified] at hv
      have hmatch : (idMatch a Config.params.cfg.idAgVal && idMatch m Config.params.cfg.idMVal) = true := by
        by_contra hno
        exact hne (by rw [hv, eq_false_of_ne_true hno, Bool.or_false])
      have hverified : t.verified = true := by rw [hv, hmatch, Bool.or_true]
      obtain ⟨hmatchAg, hmatchM⟩ := Bool.and_eq_true_iff.mp hmatch
      obtain ⟨haok, hab⟩ := idMatch_iff.mp hmatchAg
      obtain ⟨hmok, hmb⟩ := idMatch_iff.mp hmatchM
      refine ⟨hverified, a, m, ⟨hb, ?_⟩, hn, haok, hab, hmok, hmb⟩
      rw [hq, ← hi, ← hp, ← ha]

/-- Settles O51: only the BusOpen of the running command writes BUS_OPEN. -/
theorem busOpenChangesOnlyAtBusOpen : Obligations.BusOpenChangesOnlyAtBusOpen := by
  intro s t hr h hne
  rcases step_block_cases h hr with ⟨_, same⟩ | ⟨w, u, _, _, same, sub⟩ | ⟨q, _, hb, hq, hx⟩
  · exact absurd same.busOpen hne
  · obtain ⟨_, _, ho, _⟩ := sub.frame
    exact absurd (ho.trans same.busOpen) hne
  · rcases commandTurn_busOpen (commandTurn_of_exec hb hq hx) with ho | ⟨ho, hbusy, hlog, hi⟩
    · exact absurd (by simpa using ho) hne
    · exact ⟨ho, by simpa [hb] using hbusy, by simpa using hlog, q, hq, hi⟩

/-- Settles O53: the guard, each primitive and the wait in place, by the rank of the position. -/
theorem sequencerNeverGoesBack : Obligations.SequencerNeverGoesBack := by
  intro s t q q' hb hq h hq'
  rw [exec_latched hb hq] at h
  exact commandTurn_forward h rfl hq hq'

end Sys2Proof.Machine
end

section
/-! SUPPORT. The obligations of 10_state.md about the words the host reads, and about reset. -/

namespace Sys2Proof.Machine

/-! ### Bits of the host's registers -/

@[simp] theorem bitAt_getElem (i j : Nat) (b : Bool) (hj : j < 32) :
    (bitAt i b)[j] = (decide (j = i) && b) := by
  rcases lt_trichotomy j i with h | rfl | h
  · simp [bitAt, h, h.ne]
  · simp [bitAt]
  · simp [bitAt, h.ne', show ¬ j < i by omega, show j - i ≠ 0 by omega]

/-- Every bit of the STATUS word (R23). -/
theorem status_getElem (s : State) (j : Nat) (hj : j < 32) : s.status[j] =
    ((decide (j = 0) && s.busy) || (decide (j = 1) && s.verified) || (decide (j = 2) && s.busOpen) ||
      (decide (j = 3) && s.ovr) || (!decide (j < 4) && (errBits s.err).getLsbD (j - 4)) ||
      (decide (j = 8) && s.idmAg) || (decide (j = 9) && s.idmM) ||
      (!decide (j < 16) && s.lastOp.getLsbD (j - 16))) := by
  simp [State.status]

/-- ERR stands in bits 7:4 (R23). -/
theorem status_err (s : State) : s.status.extractLsb' 4 4 = errBits s.err := by
  ext i hi
  interval_cases i <;> simp [status_getElem]

/-- LAST_OP stands in bits 19:16 (R23). -/
theorem status_lastOp (s : State) : s.status.extractLsb' 16 4 = s.lastOp := by
  ext i hi
  interval_cases i <;> simp [status_getElem]

/-- The reserved bits of STATUS read 0 (R23). -/
theorem status_reserved (s : State) :
    s.status.extractLsb' 10 6 = 0 ∧ s.status.extractLsb' 20 12 = 0 := by
  constructor <;> ext i hi <;> interval_cases i <;> simp [status_getElem]

/-- R172: the codes are 0 to 6. -/
theorem errBits_toNat_le (e : ErrCode) : (errBits e).toNat ≤ 6 := by
  cases e <;> decide

/-- The reserved bits of RXCNT read 0 (R31). -/
theorem rxcntWord_reserved (s : State) : s.rxcntWord.extractLsb' 8 24 = 0 := by
  ext i hi
  simp [State.rxcntWord]

/-- The upper half of RXDATA1 reads 0 (R32). -/
theorem rxdata1_reserved (s : State) : s.rxdata1.extractLsb' 16 16 = 0 := by
  ext i hi
  simp [State.rxdata1, byteAt, show 8 ≤ 16 + i by omega, show 8 ≤ 16 + i - 8 by omega]

/-- From 0x14 on the window is reserved (R53). -/
theorem hostRegister_reserved (s : State) {off : Nat} (h : 0x14 ≤ off) : s.hostRegister off = 0 := by
  simp [State.hostRegister, show off ≠ 0x04 by omega, show off ≠ 0x08 by omega, show off ≠ 0x0C by omega,
    show off ≠ 0x10 by omega]

/-! ### The obligations -/

/-- Settles O47: the invariant's first three parts, and the reserved bits, which read 0 in every state. -/
theorem reachableStateInvariants : Obligations.ReachableStateInvariants := by
  intro s inv
  obtain ⟨h10, h20⟩ := status_reserved s
  refine ⟨inv.verified_busOpen, ?_, inv.rxcnt_le,
    ⟨h10, h20, rxcntWord_reserved s, rxdata1_reserved s⟩, ?_⟩
  · rw [inv.busy_iff]
    exact Option.isSome_eq_false_iff.trans Option.isNone_iff_eq_none
  · rw [status_err]
    exact errBits_toNat_le s.err

/-- Settles O11: the five registers, and the reserved rest of the window. -/
theorem hostRegisterMap : Obligations.HostRegisterMap := fun s =>
  ⟨hostRegister_cmd s, hostRegister_status s, hostRegister_rxcnt s, hostRegister_rxdata0 s,
    hostRegister_rxdata1 s, fun _ => hostRegister_reserved s⟩

/-- Settles O16: the one-bit fields by their bit, the others by their extracts. -/
theorem statusFieldsInPlace : Obligations.StatusFieldsInPlace := by
  intro s
  obtain ⟨h10, h20⟩ := status_reserved s
  exact ⟨status_busy s, status_verified s, status_busOpen s, status_ovr s, status_err s,
    by simp [status_getElem], by simp [status_getElem], h10, status_lastOp s, h20⟩

/-- Every byte of the buffer is 0 after reset (R39). -/
theorem reset_rxbuf_getElem (k : Nat) (h : k < 6) : State.reset.rxbuf[k] = 0 := by
  interval_cases k <;> rfl

/-- Settles O19: the reset state is written out with R39's values. -/
theorem resetValues : Obligations.ResetValues :=
  ⟨rfl, rfl, rfl, rfl, rfl, rfl, rfl, rfl, rfl, reset_rxbuf_getElem, rfl, rfl⟩

/-- Settles O45: block reset reaches the invariant from any state, the reset state itself included. -/
theorem resetMeetsTheInvariant : Obligations.ResetMeetsTheInvariant :=
  blockInvUnder_reset Config.params.cfg State.reset

end Sys2Proof.Machine
end

section
/-! SUPPORT. What a step answers where it answers at all: the controller's step by the sequencer's position, the
host's step by its next operation, and that neither stops a machine that meets the invariant (20_memory.md R51 to
R55, R70; 60_exceptions.md R170). -/

namespace Sys2Proof.Machine

/-! ### One step of a command, by its position -/

section Position

variable {guard : Pos} {prims : List Prim} {done : List Answer → Option Completion} {q : Sequencer} {s : State}

theorem commandTurn_start (h : q.pos = .start) : commandTurn guard prims done q s = .next (s.goto q guard) := by
  simp [commandTurn, h]

theorem commandTurn_exit {e : ErrCode} (h : q.pos = .exit e) :
    commandTurn guard prims done q s = .next (complete { err := e } s) := by
  simp [commandTurn, h]

theorem commandTurn_prim {k : Nat} {p : Prim} (h : q.pos = .prim k) (hp : prims[k]? = some p) :
    commandTurn guard prims done q s = .next (runPrim p k q s) := by
  simp [commandTurn, h, hp]

theorem commandTurn_done {d : Completion} (h : q.pos = .prim prims.length) (hd : done q.answers = some d) :
    commandTurn guard prims done q s = .next (complete d s) := by
  simp [commandTurn, h, hd]

end Position

/-! ### The running command never loses its sequencer (10_state.md R37 b) -/

/-- With an answer for each of its transactions a command can complete. -/
theorem doneOf_of_answersFit {c : Config} {i : Instr} {as : List Answer}
    (h : answersFit (procedure c i) as = true) : ∃ d, doneOf c i as = some d := by
  cases i with
  | openBus =>
    cases as with
    | nil => exact ⟨_, rfl⟩
    | cons => cases h
  | write | read | rdacc | rdgyr | rdmag =>
    rcases as with _ | ⟨a, _ | ⟨b, as⟩⟩
    · cases h
    · exact ⟨_, rfl⟩
    · simp [procedure, writePrims, readPrims, axisPrims, answersFit] at h
  | detect =>
    rcases as with _ | ⟨a, _ | ⟨m, _ | ⟨b, as⟩⟩⟩
    · cases h
    · simp [procedure, detectPrims, answersFit] at h
    · exact ⟨_, rfl⟩
    · simp [procedure, detectPrims, answersFit] at h
  | enable => exact ⟨_, rfl⟩

/-- At every point the invariant allows, the running command has a step. -/
theorem commandTurn_safe {c : Config} {q : Sequencer} {s : State} {guard : Pos} (h : seqOk c q s = true) :
    ∃ t, commandTurn guard (procedure c q.cmd) (doneOf c q.cmd) q s = .next t := by
  cases hpos : q.pos with
  | start => exact ⟨_, commandTurn_start hpos⟩
  | exit e => exact ⟨_, commandTurn_exit hpos⟩
  | prim k =>
    obtain ⟨_, _, hk, hfit, _⟩ := (seqOk_prim_iff hpos).mp h
    cases hp : (procedure c q.cmd)[k]? with
    | some p => exact ⟨_, commandTurn_prim hpos hp⟩
    | none =>
      obtain rfl : k = (procedure c q.cmd).length := le_antisymm hk (List.getElem?_eq_none_iff.mp hp)
      rw [List.take_length] at hfit
      obtain ⟨d, hd⟩ := doneOf_of_answersFit hfit
      exact ⟨_, commandTurn_done hpos hd⟩

theorem controllerStep_safe {s : State} (inv : BlockInv s) : ∃ t, controllerStep exec s = .next t := by
  unfold controllerStep
  split
  next hb =>
    have hrun : s.seq.isSome = true := inv.busy_iff ▸ hb
    obtain ⟨q, hq⟩ := Option.isSome_iff_exists.mp hrun
    obtain ⟨t, ht⟩ := commandTurn_safe (guard := guardOf q.cmd s) (inv.seq_ok q hq)
    exact ⟨t, by simp only [hq]; rw [exec_latched hb hq, ht]⟩
  next => exact ⟨s, rfl⟩

/-! ### The host's step, by its next operation -/

theorem supported_iff {size off : Nat} : supported size off = true ↔ size = 4 ∧ off % 4 = 0 ∧ off < 0x40 := by
  simp [supported, and_assoc]

section Operation

variable {s : State} {size off : Nat} {v : Word} {ops : List HostOp}

theorem hostStep_read (hp : s.program = .read size off :: ops) (hs : supported size off = true) :
    hostStep exec s = .next ((s.programRest ops).hostSees (s.hostRegister off)) := by
  simp [hostStep, hp, hs]

theorem hostStep_read_unsupported (hp : s.program = .read size off :: ops) (hs : supported size off = false) :
    hostStep exec s = .refused .unsupportedAccess := by
  simp [hostStep, hp, hs]

theorem hostStep_write (hp : s.program = .write size off v :: ops) (hs : supported size off = true)
    (h0 : off ≠ 0) : hostStep exec s = .next (s.programRest ops) := by
  simp [hostStep, hostWrite, hp, hs, h0]

theorem hostStep_write_cmd (hp : s.program = .write size 0 v :: ops) (hs : supported size 0 = true) :
    hostStep exec s = submit exec v (s.programRest ops) := by
  simp [hostStep, hostWrite, hp, hs]

theorem hostStep_write_unsupported (hp : s.program = .write size off v :: ops)
    (hs : supported size off = false) : hostStep exec s = .refused .unsupportedAccess := by
  simp [hostStep, hp, hs]

theorem hostStep_wait (hp : s.program = .wait :: ops) :
    hostStep exec s = .next ((if s.busy then s else s.programRest ops).hostSees s.status) := by
  cases hb : s.busy <;> simp [hostStep, hp, hb]

end Operation

/-- A submission is dropped, rejected or accepted, and never stops the machine (R85, R170). -/
theorem submit_safe (w : Word) (s : State) : ∃ t, submit exec w s = .next t := by
  unfold submit
  split
  next => exact ⟨_, rfl⟩
  next hb =>
    split
    next i hi => exact ⟨_, exec_idle (eq_false_of_ne_true hb) (wf_of_decode hi)⟩
    next => exact ⟨_, rfl⟩

theorem hostStep_safe {s : State} (h : programSupported s = true) : ∃ t, hostStep exec s = .next t := by
  cases hp : s.program with
  | nil => exact ⟨s, by simp [hostStep, hp]⟩
  | cons op ops =>
    have hop : opSupported op = true := List.all_eq_true.mp h op (by simp [hp])
    cases op with
    | read size off => exact ⟨_, hostStep_read hp hop⟩
    | write size off v =>
      by_cases h0 : off = 0
      · subst h0
        rw [hostStep_write_cmd hp hop]
        exact submit_safe v _
      · exact ⟨_, hostStep_write hp hop h0⟩
    | wait => exact ⟨_, hostStep_wait hp⟩

/-! ### A step of the machine -/

/-- No step but the host's own makes operations of its program, and no step looks past the turn it takes. -/
theorem step_inputs {s t : State} (h : step s = .next t) :
    t.program <:+ s.program ∧ t.turns = s.turnTaken.turns := by
  rcases step_cases h with ⟨_, h⟩ | ⟨_, _, h⟩ | ⟨_, rfl⟩
  · rw [← State.turnTaken_program s]
    rcases hostStep_cases h with ⟨_, rfl⟩ | ⟨_, _, ops, hp, _, rfl⟩ | ⟨_, _, _, ops, hp, _, _, rfl⟩ |
      ⟨_, _, ops, hp, _, h⟩ | ⟨ops, hp, _, rfl⟩ | ⟨ops, hp, _, rfl⟩
    · exact ⟨List.suffix_rfl, rfl⟩
    · exact ⟨hp ▸ List.suffix_cons _ _, rfl⟩
    · exact ⟨hp ▸ List.suffix_cons _ _, rfl⟩
    · rw [hp]
      rcases submit_cases h with ⟨_, rfl⟩ | ⟨_, _, rfl⟩ | ⟨_, _, _, rfl⟩ <;>
        exact ⟨List.suffix_cons _ _, rfl⟩
    · exact ⟨List.suffix_rfl, rfl⟩
    · exact ⟨hp ▸ List.suffix_cons _ _, rfl⟩
  · rcases controllerStep_cases h with ⟨_, rfl⟩ | ⟨_, q, _, h⟩
    · simp
    · obtain ⟨hprog, _, hturns, _⟩ := exec_inputs h
      exact ⟨by simp [hprog], hturns⟩
  · simp

theorem programSupported_of_step {s t : State} (h : step s = .next t) (hs : programSupported s = true) :
    programSupported t = true :=
  List.all_eq_true.mpr fun op hop => List.all_eq_true.mp hs op ((step_inputs h).1.mem hop)

theorem step_safe {s : State} (inv : BlockInv s) (hs : programSupported s = true) : StepSafe s := by
  unfold StepSafe step stepWith agentStep
  split
  next => exact hostStep_safe (by simpa [programSupported] using hs)
  next => exact controllerStep_safe (inv.of_sameBlock (sameBlock_turnTaken s))
  next => exact ⟨_, rfl⟩

/-- Settles O48: neither agent stops such a machine, and each step keeps the invariant and leaves no new
operation to the host. -/
theorem supportedHostNeverStops : Obligations.SupportedHostNeverStops := by
  intro s inv hs
  obtain ⟨t, ht⟩ := step_safe inv hs
  exact ⟨t, ht, everyStepKeepsTheInvariant s t inv ht, programSupported_of_step ht hs⟩

end Sys2Proof.Machine
end

section
/-! SUPPORT. The obligations of 20_memory.md about the host's accesses. -/

namespace Sys2Proof.Machine

/-! ### Bytes of the data registers (R57) -/

theorem byteAt_getElem (k : Nat) (b : Byte) (j : Nat) (hj : j < 32) :
    (byteAt k b)[j] = (!decide (j < 8 * k) && b.getLsbD (j - 8 * k)) := by
  simp [byteAt]

/-- Byte `j` of a register that holds one byte at `k`. -/
theorem byteAt_extract {k j : Nat} (b : Byte) (hj : j < 4) :
    (byteAt k b).extractLsb' (8 * j) 8 = if j = k then b else 0 := by
  ext i hi
  rw [BitVec.getElem_extractLsb', BitVec.getLsbD_eq_getElem (by omega), byteAt_getElem]
  rcases lt_trichotomy j k with h | rfl | h
  · simp [h.ne, show 8 * j + i < 8 * k by omega]
  · simp [hi]
  · simp [h.ne', show ¬ 8 * j + i < 8 * k by omega, show 8 ≤ 8 * j + i - 8 * k by omega]

theorem rxdata0_extract (s : State) {j : Nat} (hj : j < 4) :
    s.rxdata0.extractLsb' (8 * j) 8 = s.rxbuf[j] := by
  simp only [State.rxdata0, BitVec.extractLsb'_or, byteAt_extract _ hj]
  interval_cases j <;> simp

theorem rxdata1_extract (s : State) {j : Nat} (hj : j < 2) :
    s.rxdata1.extractLsb' (8 * j) 8 = s.rxbuf[4 + j] := by
  simp only [State.rxdata1, BitVec.extractLsb'_or, byteAt_extract _ (show j < 4 by omega)]
  interval_cases j <;> simp

/-! ### What the host reads -/

/-- The registers show the block and nothing else (R51). -/
theorem SameBlock.hostRegister_eq {s t : State} (h : SameBlock t s) (off : Nat) :
    t.hostRegister off = s.hostRegister off := by
  simp only [State.hostRegister, State.status, State.rxcntWord, State.rxdata0, State.rxdata1, h.busy, h.verified,
    h.busOpen, h.ovr, h.err, h.idmAg, h.idmM, h.lastOp, h.rxcnt, h.rxbuf]

/-! ### The obligations -/

/-- Settles O40: a host step that submits no word leaves the block, and so every register. -/
theorem hostTouchesTheBlockOnlyByCmd : Obligations.HostTouchesTheBlockOnlyByCmd := by
  intro s t hn h hw
  rcases step_block_cases h (by simp [hn]) with ⟨_, same⟩ | ⟨w, _, _, ⟨ops, hp⟩, _⟩ | ⟨_, ⟨a, ha⟩, _⟩
  · exact ⟨same, same.hostRegister_eq⟩
  · exact absurd hp (hw 4 w ops)
  · simp [hn] at ha

/-- Settles O10: a supported read hands the host the register. -/
theorem hostReadHasNoSideEffect : Obligations.HostReadHasNoSideEffect := by
  intro s off ops ts hts hp halign hwindow
  rw [step_host hts]
  exact hostStep_read hp (supported_iff.mpr ⟨rfl, halign, hwindow⟩)

/-- Settles O12: a supported write past CMD only leaves the host's program. -/
theorem otherWritesAreIgnored : Obligations.OtherWritesAreIgnored := by
  intro s off v ops ts hts hp halign hwindow h0
  rw [step_host hts]
  exact hostStep_write hp (supported_iff.mpr ⟨rfl, halign, hwindow⟩) h0

/-- Settles O13: the access fails the host's check, whether it reads or writes. -/
theorem unsupportedAccessIsRefused : Obligations.UnsupportedAccessIsRefused := by
  intro s size off v ops ts hts hp hbad
  have hs : supported size off = false := by
    refine eq_false_of_ne_true fun h => ?_
    obtain ⟨hsize, halign, hwindow⟩ := supported_iff.mp h
    omega
  rw [step_host hts]
  rcases hp with hp | hp
  · exact hostStep_read_unsupported hp hs
  · exact hostStep_write_unsupported hp hs

/-- Settles O18: bytes 0 to 3 stand in RXDATA0, bytes 4 and 5 in RXDATA1. -/
theorem receiveBufferPacking : Obligations.ReceiveBufferPacking := by
  intro s
  refine ⟨fun k hk => ?_, rxdata1_reserved s⟩
  obtain h | ⟨j, rfl⟩ : k < 4 ∨ ∃ j, k = 4 + j := by
    by_cases h : k < 4
    · exact .inl h
    · exact .inr ⟨k - 4, by omega⟩
  · rw [Nat.div_eq_of_lt h, Nat.mod_eq_of_lt h]
    exact rxdata0_extract s h
  · have hj : j < 2 := by omega
    rw [show (4 + j) / 4 = 1 by omega, show (4 + j) % 4 = j by omega]
    exact rxdata1_extract s hj

end Sys2Proof.Machine
end

section
/-! SUPPORT. The obligations of 20_memory.md about the controller's steps: READ, DETECT and the axis reads step by
step, and the transaction that waits for the platform. -/

namespace Sys2Proof.Machine

/-! ### `exec` of the command that runs, by its position -/

section Running

variable {i : Instr} {as : List Answer} {s : State}

theorem exec_start (h : Runs i .start as s) :
    exec i s = .next (s.goto { cmd := i, pos := .start, answers := as } (guardOf i s)) :=
  (exec_of_runs h).trans (commandTurn_start rfl)

theorem exec_exit {e : ErrCode} (h : Runs i (.exit e) as s) : exec i s = .next (complete { err := e } s) :=
  (exec_of_runs h).trans (commandTurn_exit rfl)

theorem exec_prim {k : Nat} {p : Prim} (h : Runs i (.prim k) as s)
    (hp : (procedure Config.params.cfg i)[k]? = some p) :
    exec i s = .next (runPrim p k { cmd := i, pos := .prim k, answers := as } s) :=
  (exec_of_runs h).trans (commandTurn_prim rfl hp)

theorem exec_done {d : Completion} (h : Runs i (.prim (procedure Config.params.cfg i).length) as s)
    (hd : doneOf Config.params.cfg i as = some d) : exec i s = .next (complete d s) :=
  (exec_of_runs h).trans (commandTurn_done rfl hd)

/-- A read answered within R62's limit logs and keeps the whole answer. -/
theorem exec_busRead {k n : Nat} {dev : DevAddr} {rb : Byte} {a : Answer} (h : Runs i (.prim k) as s)
    (hp : (procedure Config.params.cfg i)[k]? = some (.busRead dev rb n)) (ha : s.answer = some a)
    (hn : a.bytes.length ≤ n) :
    exec i s = .next ((s.logEvent (.evRead dev rb n a.ok a.bytes)).keepAnswer
      { cmd := i, pos := .prim k, answers := as } (k + 1) a) := by
  rw [exec_prim h hp, runPrim, ha]
  simp only [List.take_of_length_le hn]

/-- A receiving command that asked for `n` bytes commits its answer and reports R104's code. -/
theorem exec_rxDone {n : Nat} {a : Answer} (h : Runs i (.prim (procedure Config.params.cfg i).length) [a] s)
    (hd : doneOf Config.params.cfg i = rxDone n) :
    exec i s = .next { s with
      rxbuf := commitBytes a.bytes s.rxbuf, rxcnt := BitVec.ofNat 8 a.bytes.length
      err := rxResult a.ok a.bytes.length n, busy := false, seq := none } :=
  exec_done h (congrFun hd [a])

end Running

theorem rxResult_eq (ok : Bool) (n cnt : Nat) :
    rxResult ok n cnt = if ok = false then .busFail else if n < cnt then .short else .ok := by
  cases ok <;> rfl

/-- The axis reads differ in the device and the register byte of their one bus read (R150 to R153). -/
theorem axisReads_cases {c : Config} {i : Instr} {dev : DevAddr} {rb : Byte} (h : (i, dev, rb) ∈ axisReads c) :
    procedure c i = axisPrims dev rb ∧ guardOf i = needVerified ∧ doneOf c i = rxDone 6 := by
  simp only [axisReads, List.mem_cons, Prod.mk.injEq, List.not_mem_nil, or_false] at h
  obtain ⟨rfl, rfl, rfl⟩ | ⟨rfl, rfl, rfl⟩ | ⟨rfl, rfl, rfl⟩ := h <;> exact ⟨rfl, rfl, rfl⟩

/-! ### The transaction that waits -/

/-- R62's transactions: the primitives that need the platform's answer. -/
def Prim.transacts (p : Prim) : Prop := (∃ dev b0 b1, p = .busWrite dev b0 b1) ∨ ∃ dev rb n, p = .busRead dev rb n

theorem awaitsAnswer_cases {c : Config} {s : State} (h : awaitsAnswer c s = true) :
    ∃ q k p, s.seq = some q ∧ q.pos = .prim k ∧ (procedure c q.cmd)[k]? = some p ∧ p.transacts := by
  unfold awaitsAnswer at h
  split at h
  next => cases h
  next q hq =>
    split at h
    next => cases h
    next => cases h
    next k hk =>
      split at h
      next dev b0 b1 hp => exact ⟨q, k, _, hq, hk, hp, .inl ⟨dev, b0, b1, rfl⟩⟩
      next dev rb n hp => exact ⟨q, k, _, hq, hk, hp, .inr ⟨dev, rb, n, rfl⟩⟩
      all_goals cases h

/-- R62, R177: without an answer a transaction waits in place. -/
theorem runPrim_unanswered {p : Prim} {s : State} (hp : p.transacts) (ha : s.answer = none) (k : Nat)
    (q : Sequencer) : runPrim p k q s = s := by
  obtain ⟨_, _, _, rfl⟩ | ⟨_, _, _, rfl⟩ := hp <;> simp [runPrim, ha]

/-! ### The obligations -/

/-- Settles O23: the bus-open guard, one bus read, and the completion of a receiving command. -/
theorem readSteps : Obligations.ReadSteps := fun _ _ _ _ _ _ =>
  ⟨exec_start, exec_exit, fun h ha hn => exec_busRead h rfl ha hn, fun h => by
    rw [← rxResult_eq]; exact exec_rxDone h rfl⟩

/-- Settles O26: the bus-open check, the four primitives of R131 in their order, and the completion. -/
theorem detectSteps : Obligations.DetectSteps := by
  rintro c s as a m rfl
  exact ⟨exec_start, fun h => exec_prim h rfl, fun h => exec_prim h rfl, fun h ha hn => exec_busRead h rfl ha hn,
    fun h ha hn => exec_busRead h rfl ha hn, fun h => exec_done h rfl⟩

/-- Settles O28: the Verified guard, one bus read of 6 bytes, and the completion of a receiving command. -/
theorem axisReadSteps : Obligations.AxisReadSteps := by
  intro i dev rb s as a hi
  obtain ⟨hproc, hguard, hdone⟩ := axisReads_cases (c := Config.params.cfg) hi
  refine ⟨fun h => ?_, exec_exit, fun h ha hn => ?_, fun h => ?_⟩
  · rw [exec_start h, hguard]
    rfl
  · exact exec_busRead h (by rw [hproc]; rfl) ha hn
  · rw [← rxResult_eq]
    exact exec_rxDone (by rwa [hproc]) hdone

/-- Settles O29: the step of the running command is the primitive it waits in. -/
theorem unansweredTransactionWaits : Obligations.UnansweredTransactionWaits := by
  intro s q hb hq ha hw
  obtain ⟨q', k, p, hq', hk, hp, htrans⟩ := awaitsAnswer_cases hw
  obtain rfl : q' = q := Option.some.inj (hq'.symm.trans hq)
  rw [exec_latched hb hq, commandTurn_prim hk hp, runPrim_unanswered htrans ha]

/-- Settles O55: by induction on the unanswered turns, each of which only takes itself from the schedule. -/
theorem unansweredCommandHangs : Obligations.UnansweredCommandHangs := by
  intro n
  induction n with
  | zero => exact fun s ts _ _ hts => ⟨s, rfl, by constructor <;> rfl, hts⟩
  | succ n ih =>
    intro s ts hb hw hts
    obtain ⟨q, _, _, hq, _⟩ := awaitsAnswer_cases hw
    have waits := (step_controller_busy hts hb hq).trans (unansweredTransactionWaits _ q hb hq rfl hw)
    obtain ⟨t, hrun, same, hrest⟩ := ih { s with turns := _, answer := none } ts hb hw rfl
    exact ⟨t, (runFor_succ waits).trans hrun, same.trans (by constructor <;> rfl), hrest⟩

end Sys2Proof.Machine
end

section
/-! SUPPORT. Whole commands: the host's submission of a command word, the controller's turns after it, and the
obligation of 20_memory.md about a whole READ. -/

namespace Sys2Proof

/-- The decoder takes back the word of every well-formed command (30_encoding.md R81, R84). -/
theorem decode_encode {i : Instr} (hw : i.wf = true) : decode (encode i) = .ok i := by
  cases i with
  | read dev ra cnt =>
    have hcount : readCountOk cnt = true := hw
    simp [decode, encode, opCode, hcount]
  | write => simp [decode, encode, opCode]
  | openBus | detect | enable | rdacc | rdgyr | rdmag => simp [decode, encode, opCode, decodeZ]

end Sys2Proof

namespace Sys2Proof.Machine

open Host (Outcome)

/-! ### The turns of a whole command -/

/-- A guard reads BUS_OPEN and VERIFIED only. -/
theorem guardOf_congr {i : Instr} {s t : State} (ho : t.busOpen = s.busOpen) (hv : t.verified = s.verified) :
    guardOf i t = guardOf i s := by
  cases i <;> simp only [guardOf, openIfClosed, needBusOpen, needVerified, ho, hv]

section Turns

variable {i : Instr} {as : List Answer} {s : State} {a : Answer} {x : Option Answer} {ts : List Turn}

/-- One step, then a run of the rest. -/
theorem runFor_step {k : Nat} {t : State} {o : Outcome State Fault Refusal} (h : step s = .next t)
    (hrest : runFor k t = o) : runFor (k + 1) s = o :=
  (runFor_succ h).trans hrest

theorem submit_encode (hb : s.busy = false) (hw : i.wf = true) :
    submit exec (encode i) s = .next (accept i s) := by
  rw [submit, if_neg (by simp [hb]), decode_encode hw]
  exact exec_idle hb hw

/-- The host's turn that submits a command to an idle block (R85). -/
theorem step_submit {ops : List HostOp} (hb : s.busy = false) (hw : i.wf = true)
    (hp : s.program = submitOp i :: ops) (hts : s.turns = .host :: ts) :
    step s = .next { s with
      busy := true, ovr := false, lastOp := opCode i, seq := some { cmd := i, pos := .start, answers := [] }
      program := ops, turns := ts, answer := none } := by
  rw [step_host hts]
  exact (hostStep_write_cmd (s := { s with turns := ts, answer := none }) hp rfl).trans (submit_encode hb hw)

/-- A controller's turn is the next step of the command that runs. -/
theorem step_of_runs {pos : Pos} (h : Runs i pos as s) (hts : s.turns = .controller x :: ts) :
    step s = exec i { s with turns := ts, answer := x } :=
  step_controller_busy hts h.1 h.2

/-- The turn of the guard. -/
theorem step_guard {pos : Pos} (h : Runs i .start as s) (hg : guardOf i s = pos)
    (hts : s.turns = .controller x :: ts) :
    step s = .next { s with
      seq := some { cmd := i, pos := pos, answers := as }, turns := ts, answer := x } := by
  have same_guard : guardOf i { s with turns := ts, answer := x } = pos := (guardOf_congr rfl rfl).trans hg
  rw [step_of_runs h hts, ← same_guard]
  exact exec_start h

/-- The turn of an answered read. -/
theorem step_busRead {k n : Nat} {dev : DevAddr} {rb : Byte} (h : Runs i (.prim k) as s)
    (hp : (procedure Config.params.cfg i)[k]? = some (.busRead dev rb n)) (hn : a.bytes.length ≤ n)
    (hts : s.turns = .controller (some a) :: ts) :
    step s = .next { s with
      log := s.log ++ [.evRead dev rb n a.ok a.bytes]
      seq := some { cmd := i, pos := .prim (k + 1), answers := as ++ [a] }, turns := ts, answer := some a } :=
  (step_of_runs h hts).trans (exec_busRead h hp rfl hn)

/-- The turn of a receiving command's completion. -/
theorem step_rxDone {n : Nat} (h : Runs i (.prim (procedure Config.params.cfg i).length) [a] s)
    (hd : doneOf Config.params.cfg i = rxDone n) (hts : s.turns = .controller x :: ts) :
    step s = .next { s with
      rxbuf := commitBytes a.bytes s.rxbuf, rxcnt := BitVec.ofNat 8 a.bytes.length
      err := rxResult a.ok a.bytes.length n, busy := false, seq := none, turns := ts, answer := x } :=
  (step_of_runs h hts).trans (exec_rxDone h hd)

/-- A whole command that is one bus read (R103, R150), when its guard lets it through: the submission, the guard,
the answered read and the completion. -/
theorem runFor_oneRead {dev : DevAddr} {rb : Byte} {n : Nat} {y : Option Answer} {ops : List HostOp}
    (hw : i.wf = true) (hproc : procedure Config.params.cfg i = [.busRead dev rb n])
    (hdone : doneOf Config.params.cfg i = rxDone n) (hguard : guardOf i s = .prim 0) (hn : a.bytes.length ≤ n)
    (hb : s.busy = false) (hp : s.program = submitOp i :: ops)
    (hts : s.turns = .host :: .controller x :: .controller (some a) :: .controller y :: ts) :
    runFor 4 s = .next { s with
      seq := none, ovr := false, lastOp := opCode i, err := rxResult a.ok a.bytes.length n
      rxbuf := commitBytes a.bytes s.rxbuf, rxcnt := BitVec.ofNat 8 a.bytes.length
      log := s.log ++ [.evRead dev rb n a.ok a.bytes], program := ops, turns := ts, answer := y } := by
  refine runFor_step (step_submit hb hw hp hts) ?_
  refine runFor_step (step_guard ⟨rfl, rfl⟩ ((guardOf_congr rfl rfl).trans hguard) rfl) ?_
  refine runFor_step (step_busRead ⟨rfl, rfl⟩ (by rw [hproc]; rfl) hn rfl) ?_
  refine runFor_step (step_rxDone ⟨rfl, by rw [hproc]; rfl⟩ hdone rfl) ?_
  simp [hb]

end Turns

/-! ### The obligation -/

/-- Settles O32: READ is one bus read, and an open bus lets it through. -/
theorem readRunReceivesBytes : Obligations.ReadRunReceivesBytes := by
  intro dev ra cnt s x y a ops ts hmin hmax hn hb ho hp hts
  have hw : (Instr.read dev ra cnt).wf = true := by simp [Instr.wf, readCountOk, hmin, hmax]
  have hguard : guardOf (.read dev ra cnt) s = .prim 0 := by simp [guardOf, needBusOpen, ho]
  exact runFor_oneRead hw rfl rfl hguard hn hb hp hts

end Sys2Proof.Machine
end

section
/-! SUPPORT. Bounded completion (60_exceptions.md R177): what a turn does to the steps a running command has left,
and the induction over the schedule. -/

namespace Sys2Proof.Machine

/-! ### A command completes with its own codes (60_exceptions.md R173) -/

theorem guardCode_mem_codesOf {i : Instr} {e : ErrCode} (h : guardCode i = some e) : e ∈ codesOf i := by
  cases i <;> cases h <;> simp [codesOf]

theorem rxDone_err_mem {n : Nat} {as : List Answer} {d : Completion} (h : rxDone n as = some d) :
    d.err ∈ [ErrCode.ok, .busFail, .short] := by
  unfold rxDone at h
  split at h <;> cases h
  rw [rxResult_eq]
  split
  · simp
  · split <;> simp

theorem doneOf_err_mem_codesOf {c : Config} {i : Instr} {as : List Answer} {d : Completion}
    (h : doneOf c i as = some d) : d.err ∈ codesOf i := by
  cases i with
  | openBus =>
    rcases as with _ | _ <;> cases h
    simp [codesOf]
  | write =>
    rcases as with _ | ⟨a, _ | _⟩ <;> cases h
    cases a.ok <;> simp [codesOf]
  | read | rdacc | rdgyr | rdmag => exact (show _ ⊆ codesOf _ by simp [codesOf]) (rxDone_err_mem h)
  | detect =>
    rcases as with _ | ⟨a, _ | ⟨m, _ | _⟩⟩ <;> cases h
    dsimp only
    split <;> simp [codesOf]
  | enable =>
    cases h
    dsimp only
    split <;> simp [codesOf]

/-! ### What a turn does to a running command -/

section Progress

variable {c : Config} {q : Sequencer} {s t : State}

/-- The invariant keeps the position inside the procedure. -/
theorem posRank_le (h : seqOk c q s = true) :
    posRank (procedure c q.cmd).length q.pos ≤ (procedure c q.cmd).length + 1 := by
  cases hp : q.pos with
  | start => exact Nat.zero_le _
  | exit e => exact Nat.le_refl _
  | prim k =>
    obtain ⟨_, _, hk, _⟩ := (seqOk_prim_iff hp).mp h
    exact Nat.succ_le_succ hk

/-- A running command of the invariant runs on a busy block (R37 b). -/
theorem BlockInvUnder.busy_of_seq (inv : BlockInvUnder c s) (hq : s.seq = some q) : s.busy = true := by
  rw [inv.busy_iff, hq]
  rfl

theorem stepsLeft_pos (inv : BlockInvUnder c s) (hq : s.seq = some q) : 0 < stepsLeft c s := by
  have := posRank_le (inv.seq_ok q hq)
  simp only [stepsLeft, hq]
  omega

theorem stepsLeft_congr (h : t.seq = s.seq) : stepsLeft c t = stepsLeft c s := by
  rw [stepsLeft, h, stepsLeft]

/-- A command that moves forward has fewer steps left. -/
theorem stepsLeft_lt {pos : Pos} {as : List Answer} (inv : BlockInvUnder c s) (hq : s.seq = some q)
    (ht : t.seq = some { cmd := q.cmd, pos := pos, answers := as })
    (hrank : posRank (procedure c q.cmd).length q.pos < posRank (procedure c q.cmd).length pos) :
    stepsLeft c t < stepsLeft c s := by
  have := posRank_le (inv.seq_ok q hq)
  simp only [stepsLeft, hq, ht]
  omega

theorem posRank_guardOf_pos (len : Nat) (i : Instr) (s : State) : 0 < posRank len (guardOf i s) := by
  rcases guardOf_cases i s with ⟨k, h⟩ | ⟨e, h, _⟩ <;> simp [h, posRank]

/-- A primitive waits for want of an answer, or moves the sequencer on by one. -/
theorem runPrim_waits_or_moves (p : Prim) (k : Nat) (q : Sequencer) (s : State) :
    (s.answer = none ∧ runPrim p k q s = s) ∨
    ∃ as, (runPrim p k q s).seq = some { cmd := q.cmd, pos := .prim (k + 1), answers := as } := by
  cases p with
  | busOpen | delay => exact .inr ⟨_, rfl⟩
  | busWrite | busRead =>
    cases ha : s.answer with
    | none => exact .inl ⟨rfl, by simp only [runPrim, ha]⟩
    | some a => exact .inr ⟨_, by simp only [runPrim, ha]; rfl⟩

/-- A step of a running command completes it with one of its codes, waits for an answer the platform did not give,
or leaves it fewer steps. -/
theorem commandTurn_progress (inv : BlockInvUnder c s) (hq : s.seq = some q)
    (h : commandTurn (guardOf q.cmd s) (procedure c q.cmd) (doneOf c q.cmd) q s = .next t) :
    (t.busy = false ∧ t.err ∈ codesOf q.cmd) ∨
    ∃ q', t.seq = some q' ∧ q'.cmd = q.cmd ∧ ((s.answer = none ∧ t = s) ∨ stepsLeft c t < stepsLeft c s) := by
  rcases commandTurn_cases h with ⟨hp, rfl⟩ | ⟨e, hp, rfl⟩ | ⟨k, p, hp, _, rfl⟩ | ⟨_, d, hd, rfl⟩
  · exact .inr ⟨_, rfl, rfl, .inr (stepsLeft_lt inv hq rfl (hp ▸ posRank_guardOf_pos _ _ _))⟩
  · obtain ⟨_, _, _, hcode⟩ := (seqOk_exit_iff hp).mp (inv.seq_ok q hq)
    exact .inl ⟨rfl, guardCode_mem_codesOf hcode⟩
  · rcases runPrim_waits_or_moves p k q s with ⟨ha, hw⟩ | ⟨as, hmove⟩
    · exact .inr ⟨q, by rw [hw, hq], rfl, .inl ⟨ha, hw⟩⟩
    · exact .inr ⟨_, hmove, rfl, .inr (stepsLeft_lt inv hq hmove (by simp [hp, posRank]))⟩
  · exact .inl ⟨rfl, doneOf_err_mem_codesOf hd⟩

/-- A host's turn leaves a running command where it is: a write to CMD is dropped (R85). -/
theorem step_host_seq (inv : BlockInv s) (hq : s.seq = some q) (hn : s.turnNow = .host) (h : step s = .next t) :
    t.seq = some q := by
  have hb := inv.busy_of_seq hq
  rcases step_block_cases h (by simp [hn]) with ⟨_, same⟩ | ⟨w, u, _, _, same, sub⟩ | ⟨_, ⟨a, ha⟩, _⟩
  · rw [same.seq, hq]
  · rw [← same.busy] at hb
    rcases sub with ⟨_, rfl⟩ | ⟨hidle, _⟩ | ⟨hidle, _⟩
    · rw [dropSubmission_seq, same.seq, hq]
    · simp [hb] at hidle
    · simp [hb] at hidle
  · simp [hn] at ha

/-- On a controller's turn, listed or free, a busy block runs the latched command. -/
theorem step_eq_exec {a : Option Answer} (hb : s.busy = true) (hq : s.seq = some q)
    (hn : s.turnNow = .controller a) : step s = exec q.cmd s.turnTaken := by
  simp [step, stepWith, agentStep, controllerStep, hn, hb, hq]

/-- A controller's turn is one step of the running command, with the answer the turn brings. -/
theorem step_controller_progress {a : Option Answer} (inv : BlockInv s) (hq : s.seq = some q)
    (hn : s.turnNow = .controller a) (h : step s = .next t) :
    (t.busy = false ∧ t.err ∈ codesOf q.cmd) ∨
    ∃ q', t.seq = some q' ∧ q'.cmd = q.cmd ∧
      ((a = none ∧ stepsLeft Config.params.cfg t = stepsLeft Config.params.cfg s) ∨
        stepsLeft Config.params.cfg t < stepsLeft Config.params.cfg s) := by
  have hb := inv.busy_of_seq hq
  have taken : stepsLeft Config.params.cfg s.turnTaken = stepsLeft Config.params.cfg s :=
    stepsLeft_congr (State.turnTaken_seq s)
  rw [step_eq_exec hb hq hn] at h
  rcases commandTurn_progress (inv.of_sameBlock (sameBlock_turnTaken s)) (by simpa using hq)
    (commandTurn_of_exec hb hq h) with done | ⟨q', hseq, hcmd, ⟨ha, rfl⟩ | hlt⟩
  · exact .inl done
  · exact .inr ⟨q', hseq, hcmd, .inl ⟨by simpa [hn, offeredBy] using ha, taken⟩⟩
  · exact .inr ⟨q', hseq, hcmd, .inr (taken ▸ hlt)⟩

end Progress

/-! ### The schedule -/

theorem step_turns {s t : State} {turn : Turn} {ts : List Turn} (h : step s = .next t)
    (hts : s.turns = turn :: ts) : t.turns = ts := by
  rw [(step_inputs h).2]
  simp [State.turnTaken, hts]

/-- Within `m` turns the machine reaches the completion of command `i`, safe to go on from. -/
def CompletesWithin (m : Nat) (i : Instr) (s : State) : Prop :=
  ∃ n t, n ≤ m ∧ runFor n s = .next t ∧ t.busy = false ∧ t.err ∈ codesOf i ∧ BlockInv t ∧
    programSupported t = true

theorem CompletesWithin.of_step {m : Nat} {i : Instr} {s t : State} (h : step s = .next t)
    (ht : CompletesWithin m i t) : CompletesWithin (m + 1) i s := by
  obtain ⟨n, u, hn, hrun, done⟩ := ht
  exact ⟨n + 1, u, Nat.succ_le_succ hn, runFor_step h hrun, done⟩

/-- A step fewer saves `bound + 1` turns, more than the turn it took and the unanswered ones before it. -/
theorem turns_suffice_after_step {left left' bound missed turns : Nat} (hlt : left' < left)
    (hmissed : missed ≤ bound) (h : left * (bound + 1) ≤ turns + 1 + missed) : left' * (bound + 1) ≤ turns := by
  have : (left' + 1) * (bound + 1) ≤ left * (bound + 1) := Nat.mul_le_mul_right _ hlt
  rw [Nat.succ_mul] at this
  omega

/-- The schedule's turns suffice from any point on, the unanswered turns just missed counted in. -/
theorem completesWithin_of_turns {bound : Nat} {ts rest : List Turn} {i : Instr} :
    ∀ {s : State} {q : Sequencer} {missed : Nat}, BlockInv s → programSupported s = true → s.seq = some q →
      q.cmd = i → (∀ t ∈ ts, t ≠ .reset) → timeoutMet bound missed ts = true → missed ≤ bound →
      stepsLeft Config.params.cfg s * (bound + 1) ≤ controllerTurns ts + missed → s.turns = ts ++ rest →
      CompletesWithin ts.length i s := by
  induction ts with
  | nil =>
    intro s q missed inv _ hq _ _ _ hmissed hleft _
    have := Nat.le_mul_of_pos_left (bound + 1) (stepsLeft_pos inv hq)
    simp only [controllerTurns] at hleft
    omega
  | cons turn ts ih =>
    intro s q missed inv hs hq hi hreset hmet hmissed hleft hturns
    obtain ⟨t, hstep, inv', hs'⟩ := supportedHostNeverStops s inv hs
    have hturns' : t.turns = ts ++ rest := step_turns hstep hturns
    have hreset' : ∀ u ∈ ts, u ≠ .reset := fun u hu => hreset u (List.mem_cons_of_mem _ hu)
    have hnow : s.turnNow = turn := by simp [State.turnNow, hturns]
    cases turn with
    | reset => exact absurd rfl (hreset .reset List.mem_cons_self)
    | host =>
      have hq' := step_host_seq inv hq hnow hstep
      rw [← stepsLeft_congr (hq'.trans hq.symm)] at hleft
      exact .of_step hstep (ih inv' hs' hq' hi hreset' hmet hmissed hleft hturns')
    | controller a =>
      rw [controllerTurns] at hleft
      rcases step_controller_progress inv hq hnow hstep with ⟨hidle, hcode⟩ | ⟨q', hq', hcmd, hleft'⟩
      · exact ⟨1, t, by simp, runFor_step hstep rfl, hidle, hi ▸ hcode, inv', hs'⟩
      · refine .of_step hstep ?_
        cases a with
        | some a =>
          have hlt := hleft'.resolve_left (by simp)
          exact ih inv' hs' hq' (hcmd.trans hi) hreset' hmet (Nat.zero_le _)
            (turns_suffice_after_step hlt hmissed hleft) hturns'
        | none =>
          simp only [timeoutMet, Bool.and_eq_true, decide_eq_true_eq] at hmet
          obtain ⟨hmiss, hmet⟩ := hmet
          refine ih inv' hs' hq' (hcmd.trans hi) hreset' hmet hmiss ?_ hturns'
          rcases hleft' with ⟨_, hsame⟩ | hlt
          · rw [hsame]
            omega
          · exact (turns_suffice_after_step hlt hmissed hleft).trans (Nat.le_add_right _ _)

/-- Settles O54: at the start no turn has been missed. -/
theorem answeredCommandsComplete : Obligations.AnsweredCommandsComplete := by
  intro s q bound ts rest inv hs _ hq hreset hmet hleft hturns
  exact completesWithin_of_turns inv hs hq rfl hreset hmet (Nat.zero_le _) hleft hturns

end Sys2Proof.Machine
end

section
/-! SUPPORT. The decoder as the inverse of the encoder (30_encoding.md R81, R83, R84). -/

namespace Sys2Proof

theorem decodeZ_ok_iff {w : Word} {i j : Instr} : decodeZ w j = .ok i ↔ operandBits w = 0 ∧ j = i := by
  unfold decodeZ
  split <;> simp_all

theorem reserved_of_decode {w : Word} {i : Instr} (h : decode w = .ok i) :
    rsv0Field w = 0 ∧ rsv1Field w = 0 := by
  by_contra hr
  rw [decode, if_pos (by tauto)] at h
  cases h

/-- No bit of a legal word is dropped: its fields make up the word, and the command holds them all. -/
theorem encode_of_decode {w : Word} {i : Instr} (h : decode w = .ok i) : encode i = w := by
  have hop := Machine.opCode_of_decode h
  obtain ⟨h0, h1⟩ := reserved_of_decode h
  have whole := encodeFields_fields w h0 h1
  rw [decode, if_neg (by simp [h0, h1]), ← hop] at h
  cases i with
  | write dev ra val =>
    obtain ⟨rfl, rfl, rfl⟩ : devField w = dev ∧ regField w = ra ∧ argField w = val := by simpa [opCode] using h
    rwa [← hop] at whole
  | read dev ra cnt =>
    change (if readCountOk (argField w) then _ else _) = _ at h
    split at h
    · obtain ⟨rfl, rfl, rfl⟩ : devField w = dev ∧ regField w = ra ∧ argField w = cnt := by simpa using h
      rwa [← hop] at whole
    · cases h
  | openBus | detect | enable | rdacc | rdgyr | rdmag =>
    have onlyOp := encodeFields_opField w h0 (decodeZ_ok_iff.mp h).1
    rwa [← hop] at onlyOp

theorem decode_eq_ok_iff {w : Word} {i : Instr} : decode w = .ok i ↔ encode i = w ∧ i.wf = true := by
  constructor
  · exact fun h => ⟨encode_of_decode h, Machine.wf_of_decode h⟩
  · rintro ⟨rfl, hw⟩
    exact decode_encode hw

/-- Settles O1: the two directions of `decode_eq_ok_iff`. -/
theorem decodeAndEncodeAgree : Obligations.DecodeAndEncodeAgree :=
  ⟨fun _ hw => decode_eq_ok_iff.mpr ⟨rfl, hw⟩, fun _ _ => decode_eq_ok_iff.mp⟩

end Sys2Proof
end

section
/-! SUPPORT. Which words are legal (30_encoding.md R83, R84, R86), and R83's match/mask table. -/

namespace Sys2Proof

/-! ### Legal words -/

/-- R83, R84: what a word needs to be a command. -/
structure LegalWord (w : Word) : Prop where
  rsv0 : rsv0Field w = 0
  rsv1 : rsv1Field w = 0
  op_pos : 1 ≤ (opField w).toNat
  op_le : (opField w).toNat ≤ 8
  operands : opField w ≠ 2 → opField w ≠ 3 → operandBits w = 0
  count : opField w = 3 → readCountOk (argField w) = true

theorem legalWord_encode {i : Instr} (hw : i.wf = true) : LegalWord (encode i) := by
  cases i with
  | read => constructor <;> simp [encode, opCode, show readCountOk _ = true from hw]
  | openBus | write | detect | enable | rdacc | rdgyr | rdmag => constructor <;> simp [encode, opCode]

theorem LegalWord.decodes {w : Word} (h : LegalWord w) : ∃ i, decode w = .ok i := by
  obtain ⟨h0, h1, hpos, hle, hz, hcount⟩ := h
  have op_eq : ∀ op : BitVec 4, (opField w).toNat = op.toNat → opField w = op := fun _ => BitVec.eq_of_toNat_eq
  have formatZ : ∀ (op : BitVec 4) (i : Instr), (opField w).toNat = op.toNat → op ≠ 2 → op ≠ 3 →
      ∃ j, decodeZ w i = .ok j := by
    intro op i hop h2 h3
    obtain rfl := op_eq op hop
    exact ⟨i, decodeZ_ok_iff.mpr ⟨hz h2 h3, rfl⟩⟩
  rw [decode, if_neg (by simp [h0, h1])]
  split
  next hop => exact formatZ 1 _ hop (by decide) (by decide)
  next => exact ⟨_, rfl⟩
  next hop => exact ⟨_, if_pos (hcount (op_eq 3 hop))⟩
  next hop => exact formatZ 4 _ hop (by decide) (by decide)
  next hop => exact formatZ 5 _ hop (by decide) (by decide)
  next hop => exact formatZ 6 _ hop (by decide) (by decide)
  next hop => exact formatZ 7 _ hop (by decide) (by decide)
  next hop => exact formatZ 8 _ hop (by decide) (by decide)
  next =>
    simp only [imp_false] at *
    omega

theorem decodes_iff {w : Word} : (∃ i, decode w = .ok i) ↔ LegalWord w := by
  refine ⟨?_, LegalWord.decodes⟩
  rintro ⟨i, hi⟩
  obtain ⟨rfl, hw⟩ := decode_eq_ok_iff.mp hi
  exact legalWord_encode hw

theorem rejects_iff {w : Word} : (∃ e, decode w = .error e) ↔ ¬ LegalWord w := by
  rw [← decodes_iff]
  cases decode w <;> simp

/-! ### R86's grounds -/

theorem rsv1Field_eq_zero_iff {w : Word} : rsv1Field w = 0 ↔ w.getLsbD 15 = false := by
  constructor
  · intro h
    have hbit := congrArg (fun v => v.getLsbD 0) h
    simpa [rsv1Field] using hbit
  · intro h
    ext j hj
    obtain rfl : j = 0 := by omega
    simpa [rsv1Field] using h

theorem readCountOk_iff {c : Byte} : readCountOk c = true ↔ ¬ (c = 0 ∨ 6 < c.toNat) := by
  have hzero : c = 0 ↔ c.toNat = 0 := BitVec.toNat_eq
  simp only [readCountOk, Bool.and_eq_true, decide_eq_true_eq, hzero]
  omega

theorem not_legalWord_iff {w : Word} : ¬ LegalWord w ↔
    (opField w = 0 ∨ 9 ≤ (opField w).toNat ∨ rsv0Field w ≠ 0 ∨ w.getLsbD 15 = true ∨
      (opField w ≠ 2 ∧ opField w ≠ 3 ∧ operandBits w ≠ 0) ∨
      (opField w = 3 ∧ (argField w = 0 ∨ 6 < (argField w).toNat))) := by
  have op_pos : ¬ opField w = 0 ↔ 1 ≤ (opField w).toNat := by simp [BitVec.toNat_eq, Nat.one_le_iff_ne_zero]
  constructor
  · intro h
    by_contra hno
    simp only [not_or, not_and, Bool.not_eq_true, not_not] at hno
    obtain ⟨h0, h9, hr0, hr1, hz, hcount⟩ := hno
    exact h ⟨hr0, rsv1Field_eq_zero_iff.mpr hr1, op_pos.mp h0, by omega, hz, fun h3 =>
      readCountOk_iff.mpr (not_or.mpr (hcount h3))⟩
  · rintro h ⟨hr0, hr1, hpos, hle, hz, hcount⟩
    rcases h with h | h | h | h | ⟨h2, h3, h⟩ | ⟨h3, h⟩
    · exact op_pos.mpr hpos h
    · omega
    · exact h hr0
    · exact Bool.false_ne_true ((rsv1Field_eq_zero_iff.mp hr1).symm.trans h)
    · exact h (hz h2 h3)
    · exact readCountOk_iff.mp (hcount h3) h

/-! ### The mask of WRITE and READ -/

/-- The bits of the mask: OP, RSV0 and RSV1. -/
theorem fieldMask_getLsbD : ∀ j < 32, (0x80FF : Word).getLsbD j = decide (j < 8 ∨ j = 15) := by decide

theorem fields_setWidth : ∀ op : BitVec 4,
    opField (op.setWidth 32) = op ∧ rsv0Field (op.setWidth 32) = 0 ∧ rsv1Field (op.setWidth 32) = 0 := by decide

/-- Under the mask a word shows its OP field alone exactly when no reserved bit is set. -/
theorem and_fieldMask_eq_iff {w : Word} {op : BitVec 4} :
    w &&& 0x80FF = op.setWidth 32 ↔ opField w = op ∧ rsv0Field w = 0 ∧ rsv1Field w = 0 := by
  constructor
  · intro h
    have hop : opField (w &&& 0x80FF) = opField w := BitVec.extractLsb'_and.trans BitVec.and_allOnes
    have h0 : rsv0Field (w &&& 0x80FF) = rsv0Field w := BitVec.extractLsb'_and.trans BitVec.and_allOnes
    have h1 : rsv1Field (w &&& 0x80FF) = rsv1Field w := BitVec.extractLsb'_and.trans BitVec.and_allOnes
    rw [← hop, ← h0, ← h1, h]
    exact fields_setWidth op
  · rintro ⟨rfl, h0, h1⟩
    apply BitVec.eq_of_getLsbD_eq
    intro j hj
    rw [BitVec.getLsbD_and, fieldMask_getLsbD j hj]
    by_cases hop : j < 4
    · simp [opField, hop, hj, show j < 8 by omega]
    · by_cases hres : j < 8 ∨ j = 15
      · have hbit := reserved_bits_zero w h0 h1 j (by omega)
        simp [opField, hop, hbit]
      · simp [opField, hop, hres]

/-! ### The rows of the table -/

/-- A mnemonic and an opcode name the same command (R82). -/
theorem mnemonic_eq_iff {i j : Instr} : i.mnemonic = j.mnemonic ↔ opCode i = opCode j := by
  cases i <;> cases j <;> simp [Instr.mnemonic, opCode]

theorem decodes_mnemonic_iff {w : Word} {j : Instr} :
    (∃ i, decode w = .ok i ∧ i.mnemonic = j.mnemonic) ↔ LegalWord w ∧ opField w = opCode j := by
  rw [← decodes_iff]
  constructor
  · rintro ⟨i, hi, hm⟩
    exact ⟨⟨i, hi⟩, (Machine.opCode_of_decode hi).symm.trans (mnemonic_eq_iff.mp hm)⟩
  · rintro ⟨⟨i, hi⟩, hop⟩
    exact ⟨i, hi, mnemonic_eq_iff.mpr ((Machine.opCode_of_decode hi).trans hop)⟩

/-- A command of format Z has no operands: it is the only one of its opcode, and it has a word. -/
theorem formatZ_only {j : Instr} (h2 : opCode j ≠ 2) (h3 : opCode j ≠ 3) :
    j.wf = true ∧ ∀ i, opCode i = opCode j → i = j := by
  cases j with
  | write => exact absurd rfl h2
  | read => exact absurd rfl h3
  | _ => exact ⟨rfl, fun i => by cases i <;> simp [opCode]⟩

/-- The row of a format Z command: the mask covers the whole word, so one word hits it. -/
theorem hits_formatZ {w : Word} {j : Instr} (h2 : opCode j ≠ 2) (h3 : opCode j ≠ 3) :
    (TableRow.mk j.mnemonic (encode j) 0xFFFFFFFF false).hits w = true ↔
      ∃ i, decode w = .ok i ∧ i.mnemonic = j.mnemonic := by
  obtain ⟨hw, only⟩ := formatZ_only h2 h3
  have hits_iff_eq : (TableRow.mk j.mnemonic (encode j) 0xFFFFFFFF false).hits w = true ↔ encode j = w := by
    rw [TableRow.hits, show w &&& 0xFFFFFFFF = w from BitVec.and_allOnes]
    simpa using eq_comm
  rw [hits_iff_eq]
  constructor
  · rintro rfl
    exact ⟨j, decode_encode hw, rfl⟩
  · rintro ⟨i, hi, hm⟩
    obtain rfl := only i (mnemonic_eq_iff.mp hm)
    exact encode_of_decode hi

/-- The row of WRITE or READ: the mask covers OP and the reserved fields, and READ has its count condition. -/
theorem hits_operands {w : Word} {j : Instr} {counted : Bool} (hop : opCode j = 2 ∨ opCode j = 3)
    (hcounted : counted = true ↔ opCode j = 3) :
    (TableRow.mk j.mnemonic ((opCode j).setWidth 32) 0x80FF counted).hits w = true ↔
      ∃ i, decode w = .ok i ∧ i.mnemonic = j.mnemonic := by
  have hits_iff_fields : (TableRow.mk j.mnemonic ((opCode j).setWidth 32) 0x80FF counted).hits w = true ↔
      (opField w = opCode j ∧ rsv0Field w = 0 ∧ rsv1Field w = 0) ∧
        (opCode j = 3 → readCountOk (argField w) = true) := by
    rw [← and_fieldMask_eq_iff, ← hcounted]
    cases counted <;> simp [TableRow.hits]
  rw [hits_iff_fields, decodes_mnemonic_iff]
  constructor
  · rintro ⟨⟨hw, h0, h1⟩, hcount⟩
    rw [← hw] at hop hcount
    refine ⟨⟨h0, h1, ?_, ?_, fun h2 h3 => absurd hop (not_or.mpr ⟨h2, h3⟩), hcount⟩, hw⟩ <;>
      rcases hop with h | h <;> simp [h]
  · rintro ⟨⟨h0, h1, _, _, _, hcount⟩, hw⟩
    exact ⟨⟨hw, h0, h1⟩, fun h => hcount (hw.trans h)⟩

theorem hits_iff (w : Word) : ∀ r ∈ commandTable,
    (r.hits w = true ↔ ∃ i, decode w = .ok i ∧ i.mnemonic = r.mnemonic) := by
  simp only [commandTable, List.cons_append, List.nil_append, List.forall_mem_cons, List.not_mem_nil,
    false_imp_iff, implies_true, and_true]
  exact ⟨hits_formatZ (j := .openBus) (by decide) (by decide),
    hits_operands (j := .write 0 0 0) (.inl rfl) (by decide),
    hits_operands (j := .read 0 0 0) (.inr rfl) (by decide),
    hits_formatZ (j := .detect) (by decide) (by decide), hits_formatZ (j := .enable) (by decide) (by decide),
    hits_formatZ (j := .rdacc) (by decide) (by decide), hits_formatZ (j := .rdgyr) (by decide) (by decide),
    hits_formatZ (j := .rdmag) (by decide) (by decide)⟩

theorem row_eq_of_mnemonic :
    ∀ r ∈ commandTable, ∀ r' ∈ commandTable, r.mnemonic = r'.mnemonic → r = r' := by decide

/-- Settles O2: two rows that a word hits have the mnemonic of the one command it decodes to. -/
theorem wordsMatchTheTable : Obligations.WordsMatchTheTable := by
  refine ⟨hits_iff, fun w r r' hr hr' h h' => ?_⟩
  obtain ⟨i, hi, hm⟩ := (hits_iff w r hr).mp h
  obtain ⟨i', hi', hm'⟩ := (hits_iff w r' hr').mp h'
  obtain rfl : i = i' := Except.ok.inj (hi.symm.trans hi')
  exact row_eq_of_mnemonic r hr r' hr' (hm.symm.trans hm')

end Sys2Proof
end

section
/-! SUPPORT. The obligations of 30_encoding.md about submission (R85, R86) and the pseudo-instructions (R89). -/

namespace Sys2Proof

theorem opField_encode (i : Instr) : opField (encode i) = opCode i := by
  cases i <;> simp [encode]

end Sys2Proof

namespace Sys2Proof.Machine

/-! ### A write of CMD, by its outcome -/

section Submission

variable {s : State} {w : Word} {i : Instr}

theorem submit_busy (hb : s.busy = true) : submit exec w s = .next (dropSubmission s) :=
  if_pos hb

theorem submit_illegal {e : Illegal} (hb : s.busy = false) (hd : decode w = .error e) :
    submit exec w s = .next (reject w s) := by
  simp [submit, hb, hd]

theorem submit_legal (hb : s.busy = false) (hd : decode w = .ok i) : submit exec w s = exec i s := by
  simp [submit, hb, hd]

theorem submit_accepts (hb : s.busy = false) (hd : decode w = .ok i) : submit exec w s = .next (accept i s) :=
  (submit_legal hb hd).trans (exec_idle hb (wf_of_decode hd))

/-- A block that runs another command drops the one `exec` is handed (R85; log 7). -/
theorem exec_drops {q : Sequencer} (hb : s.busy = true) (hq : s.seq = some q) (hne : q.cmd ≠ i) :
    exec i s = .next (dropSubmission s) := by
  rw [exec_eq_execUnder, execUnder, runCommand, if_pos hb, hq]
  exact if_neg hne

theorem step_cmdWrite {ops : List HostOp} {ts : List Turn} (hts : s.turns = .host :: ts)
    (hp : s.program = .write 4 0 w :: ops) :
    step s = submit exec w { s with turns := ts, answer := none, program := ops } := by
  rw [step_host hts]
  exact hostStep_write_cmd hp rfl

end Submission

/-! ### The obligations -/

/-- Settles O5: the step is the submission of the word, which drops, rejects or accepts. -/
theorem submissionDropsRejectsOrAccepts : Obligations.SubmissionDropsRejectsOrAccepts := by
  intro s w ops ts hts hp
  rw [step_cmdWrite hts hp]
  refine ⟨fun hb => submit_busy hb, fun e hb hd => submit_illegal hb hd, fun i hb hd => ?_⟩
  rw [← opCode_of_decode hd]
  exact submit_accepts hb hd

/-- Settles O4: R86's grounds are what a legal word excludes, and the step is the second outcome of R85. -/
theorem illegalWordRejected : Obligations.IllegalWordRejected := by
  refine ⟨fun w => rejects_iff.trans not_legalWord_iff, fun s w e ops ts hts hp hb hd => ?_⟩
  obtain ⟨_, rejected, _⟩ := submissionDropsRejectsOrAccepts s w ops ts hts hp
  exact rejected e hb hd

/-- Settles O6: an idle block hands the decoded command to `exec`. -/
theorem stepRunsTheSubmittedCommand : Obligations.StepRunsTheSubmittedCommand := by
  intro s w i ops ts hts hp hb hd
  rw [step_cmdWrite hts hp]
  exact submit_legal hb hd

/-- Settles O7: it is the controller's turn of a busy block. -/
theorem stepRunsTheLatchedCommand : Obligations.StepRunsTheLatchedCommand :=
  fun _ _ _ _ => step_controller_busy

/-- Settles O9: one lemma for each of the three; a rejected command's LAST_OP is that of the word it encodes to. -/
theorem execAcceptsRejectsOrDrops : Obligations.ExecAcceptsRejectsOrDrops := by
  intro i s
  refine ⟨exec_idle, fun hb hw => ?_, fun q => exec_drops⟩
  rw [← opField_encode]
  exact exec_idle_illFormed hb hw

/-- Settles O14: the expansions are the definitions, and WAIT's step splits on BUSY. -/
theorem pseudoInstructionsExpand : Obligations.PseudoInstructionsExpand := by
  refine ⟨fun _ => ⟨rfl, rfl⟩, fun s ops ts hts hp => ?_⟩
  rw [step_host hts]
  refine (hostStep_wait (s := { s with turns := ts, answer := none }) hp).trans ?_
  by_cases hb : s.busy = true
  · rw [if_pos hb, if_pos hb]
    rfl
  · rw [if_neg hb, if_neg hb]
    rfl

end Sys2Proof.Machine
end

section
/-! SUPPORT. The obligations of 30_encoding.md about OPEN, WRITE and ENABLE: their controller steps one by one, and
the whole commands, which are runs of bus writes (40_transport.md R101, R102; 41_driver.md R140, R141). -/

namespace Sys2Proof.Machine

/-! ### Bus writes and completions -/

section Turns

variable {i : Instr} {as : List Answer} {s : State}

/-- An answered write logs its event and keeps whether it succeeded. -/
theorem exec_busWrite {k : Nat} {dev : DevAddr} {b0 b1 : Byte} {a : Answer} (h : Runs i (.prim k) as s)
    (hp : (procedure Config.params.cfg i)[k]? = some (.busWrite dev b0 b1)) (ha : s.answer = some a) :
    exec i s = .next ((s.logEvent (.evWrite dev b0 b1 a.ok)).keepAnswer
      { cmd := i, pos := .prim k, answers := as } (k + 1) { ok := a.ok, bytes := [] }) := by
  rw [exec_prim h hp, runPrim, ha]

/-- The turn of an answered write. -/
theorem step_busWrite {k : Nat} {dev : DevAddr} {b0 b1 : Byte} {a : Answer} {ts : List Turn}
    (h : Runs i (.prim k) as s) (hp : (procedure Config.params.cfg i)[k]? = some (.busWrite dev b0 b1))
    (hts : s.turns = .controller (some a) :: ts) :
    step s = .next { s with
      log := s.log ++ [.evWrite dev b0 b1 a.ok]
      seq := some { cmd := i, pos := .prim (k + 1), answers := as ++ [{ ok := a.ok, bytes := [] }] }
      turns := ts, answer := some a } :=
  (step_of_runs h hts).trans (exec_busWrite h hp rfl)

/-- The turn of a completion that writes no result but ERR. -/
theorem step_done {e : ErrCode} {x : Option Answer} {ts : List Turn}
    (h : Runs i (.prim (procedure Config.params.cfg i).length) as s)
    (hd : doneOf Config.params.cfg i as = some { err := e }) (hts : s.turns = .controller x :: ts) :
    step s = .next { s with err := e, busy := false, seq := none, turns := ts, answer := x } :=
  (step_of_runs h hts).trans (exec_done (s := { s with turns := ts, answer := x }) h hd)

end Turns

theorem enablePrims_length (c : Config) : (enablePrims c).length = c.enableSeq.length := by
  simp [enablePrims]

/-- Primitive `k` of ENABLE is the write of entry `k` (R140). -/
theorem enablePrims_getElem? {c : Config} {k : Nat} {e : EnableEntry} (h : c.enableSeq[k]? = some e) :
    (enablePrims c)[k]? = some (.busWrite (c.addrOf e.sub) e.ra e.val) := by
  simp [enablePrims, h]

/-! ### Step by step -/

/-- Settles O21: the bus-open check, BusOpen and the completion. -/
theorem openSteps : Obligations.OpenSteps := fun _ _ =>
  ⟨exec_start, fun h => exec_prim h rfl, fun h => exec_done h rfl⟩

/-- Settles O22: the bus-open guard with its failure, one bus write, and the completion. -/
theorem writeSteps : Obligations.WriteSteps := fun _ _ _ _ _ _ =>
  ⟨exec_start, exec_exit, fun h ha => exec_busWrite h rfl ha, fun h => exec_done h rfl⟩

/-- Settles O27: the Verified guard with its failure, the bus write of each entry, and the completion at the end of
the list. -/
theorem enableSteps : Obligations.EnableSteps := by
  rintro c s as k e a rfl
  refine ⟨exec_start, exec_exit, fun h hk ha => exec_busWrite h (enablePrims_getElem? hk) ha, fun h => ?_⟩
  rw [← enablePrims_length] at h
  exact exec_done h rfl

/-! ### Whole commands -/

/-- Settles O31: the submission, the guard, the one answered write and the completion. -/
theorem writeRunWritesOneRegister : Obligations.WriteRunWritesOneRegister := by
  intro dev ra val s x y a ops ts hb ho hp hts
  have hguard : guardOf (.write dev ra val) s = .prim 0 := by simp [guardOf, needBusOpen, ho]
  refine runFor_step (step_submit hb rfl hp hts) ?_
  refine runFor_step (step_guard ⟨rfl, rfl⟩ ((guardOf_congr rfl rfl).trans hguard) rfl) ?_
  refine runFor_step (step_busWrite ⟨rfl, rfl⟩ rfl rfl) ?_
  refine runFor_step (step_done ⟨rfl, rfl⟩ rfl rfl) ?_
  simp [hb, opCode]

/-- What is left of an ENABLE at write `k`, holding the answers `prev`: the writes of the remaining entries and the
completion, by induction on the answers still to come. -/
theorem runFor_enableWrites {as prev : List Answer} {k : Nat} {s : State} {y : Option Answer} {ts : List Turn}
    (h : Runs .enable (.prim k) prev s) (hk : k + as.length = Config.params.cfg.enableSeq.length)
    (hts : s.turns = as.map (fun a => Turn.controller (some a)) ++ .controller y :: ts) :
    runFor (as.length + 1) s = .next { s with
      busy := false, seq := none, err := if (prev ++ as).all (·.ok) then .ok else .busFail
      log := s.log ++ List.zipWith (writeEvent Config.params.cfg) (Config.params.cfg.enableSeq.drop k) as
      turns := ts, answer := y } := by
  induction as generalizing k prev s with
  | nil =>
    obtain rfl : k = (procedure Config.params.cfg .enable).length := hk.trans (enablePrims_length _).symm
    refine runFor_step (step_done h rfl hts) ?_
    simp
  | cons a as ih =>
    rw [List.length_cons] at hk
    have hlt : k < Config.params.cfg.enableSeq.length := by omega
    have hwrite := enablePrims_getElem? (List.getElem?_eq_getElem hlt)
    have hlog : List.zipWith (writeEvent Config.params.cfg) (Config.params.cfg.enableSeq.drop k) (a :: as) =
        writeEvent Config.params.cfg Config.params.cfg.enableSeq[k] a ::
          List.zipWith (writeEvent Config.params.cfg) (Config.params.cfg.enableSeq.drop (k + 1)) as := by
      rw [List.drop_eq_getElem_cons hlt, List.zipWith_cons_cons]
    refine runFor_step (step_busWrite h hwrite hts) ?_
    refine (ih (k := k + 1) (prev := prev ++ [{ ok := a.ok, bytes := [] }]) ⟨?_, rfl⟩ (by omega) rfl).trans ?_
    · exact h.1
    · simp [hlog, writeEvent]

/-- Settles O35: the submission, the guard, and then every write and the completion. -/
theorem enableRunWritesTheSequence : Obligations.EnableRunWritesTheSequence := by
  rintro c s x y as ops ts rfl has hb hv hp hts
  have hguard : guardOf .enable s = .prim 0 := by simp [guardOf, needVerified, hv]
  rw [← has]
  refine runFor_step (step_submit hb rfl hp hts) ?_
  refine runFor_step (step_guard ⟨rfl, rfl⟩ ((guardOf_congr rfl rfl).trans hguard) rfl) ?_
  refine (runFor_enableWrites ⟨rfl, rfl⟩ (by simpa using has) rfl).trans ?_
  simp [hb, opCode]

end Sys2Proof.Machine
end

section
/-! SUPPORT. The obligations of 30_encoding.md about the assembler (R88, R90). -/

namespace Sys2Proof.Machine

theorem assembleCommand_write_isSome {dev ra val : Nat} :
    (assembleCommand "WRITE" [dev, ra, val]).isSome = true ↔ dev < 0x80 ∧ ra < 0x100 ∧ val < 0x100 := by
  rw [assembleCommand]
  split <;> simp [*]

theorem assembleCommand_read_isSome {dev ra cnt : Nat} :
    (assembleCommand "READ" [dev, ra, cnt]).isSome = true ↔
      dev < 0x80 ∧ ra < 0x100 ∧ 1 ≤ cnt ∧ cnt ≤ 6 := by
  rw [assembleCommand]
  split <;> simp [*]

theorem readCountOk_ofNat {cnt : Nat} (hmin : 1 ≤ cnt) (hmax : cnt ≤ 6) :
    readCountOk (BitVec.ofNat 8 cnt) = true := by
  have hval : (BitVec.ofNat 8 cnt).toNat = cnt := by
    rw [BitVec.toNat_ofNat]
    omega
  simp [readCountOk, hval, hmin, hmax]

/-- Of the commands the assembler gives, READ alone needs its range check to be well formed. -/
theorem assembleCommand_some {m : String} {operands : List Nat} {i : Instr}
    (h : assembleCommand m operands = some i) : i.wf = true ∧ i.mnemonic = m := by
  unfold assembleCommand at h
  split at h
  case h_2 =>
    split at h <;> cases h
    exact ⟨rfl, rfl⟩
  case h_3 =>
    split at h <;> cases h
    next hrange =>
      obtain ⟨_, _, hmin, hmax⟩ := hrange
      exact ⟨readCountOk_ofNat hmin hmax, rfl⟩
  case h_9 => cases h
  all_goals
    cases h
    exact ⟨rfl, rfl⟩

/-- Settles O60: WRITE's and READ's range checks, and what every assembled command is. -/
theorem assemblerRefusesOutOfRange : Obligations.AssemblerRefusesOutOfRange := fun _ _ _ =>
  ⟨assembleCommand_write_isSome, assembleCommand_read_isSome, fun _ _ _ => assembleCommand_some⟩

/-- Settles O3: the nine closed rows of R90's table, evaluated. -/
theorem specWordsDecode : Obligations.SpecWordsDecode := by
  unfold Obligations.SpecWordsDecode
  decide

end Sys2Proof.Machine
end

section
/-! SUPPORT. The obligations of 40_transport.md: the bytes a read commits (R104), the whole commands that a guard ends
or that open the bus (R100, R101), the axis reads (41_driver.md R150), and that no transport command looks at VERIFIED
(R105). -/

namespace Sys2Proof.Machine

open Host (Outcome)

/-! ### Committing bytes (R104) -/

theorem commitBytes_getElem (bytes : List Byte) (buf : Vector Byte 6) (i : Nat) (h : i < 6) :
    (commitBytes bytes buf)[i] = if hi : i < bytes.length then bytes[i] else buf[i] := by
  rw [commitBytes, Vector.getElem_ofFn, List.getD_eq_getElem?_getD]
  split
  next hi => rw [List.getElem?_eq_getElem hi, Option.getD_some]
  next hi => rw [List.getElem?_eq_none (not_lt.mp hi), Option.getD_none]; rfl

/-- RXCNT has room for the number of bytes of a full buffer. -/
theorem rxCommit_rxcnt_toNat {bytes : List Byte} (s : State) (h : bytes.length ≤ 6) :
    (rxCommit (some bytes) s).rxcnt.toNat = bytes.length := by
  rw [rxCommit_rxcnt, Option.elim_some, BitVec.toNat_ofNat]
  omega

/-- Settles O24: byte by byte, with the count and the result code. -/
theorem receivedBytesAreCommitted : Obligations.ReceivedBytesAreCommitted :=
  ⟨commitBytes_getElem, fun bytes s h => ⟨rxCommit_rxcnt_toNat s h, rxCommit_rxbuf (some bytes) s⟩, rxResult_eq⟩

/-! ### Whole commands -/

section Turns

variable {i : Instr} {as : List Answer} {s : State} {x : Option Answer} {ts : List Turn}

/-- The turn of BusOpen (R101, R131). -/
theorem step_busOpen {k : Nat} (h : Runs i (.prim k) as s)
    (hp : (procedure Config.params.cfg i)[k]? = some .busOpen) (hts : s.turns = .controller x :: ts) :
    step s = .next { s with
      busOpen := true, log := s.log ++ [.evOpen]
      seq := some { cmd := i, pos := .prim (k + 1), answers := as }, turns := ts, answer := x } :=
  (step_of_runs h hts).trans (exec_prim (s := { s with turns := ts, answer := x }) h hp)

/-- The turn of the completion that a failed guard leads to (R171). -/
theorem step_exit {e : ErrCode} (h : Runs i (.exit e) as s) (hts : s.turns = .controller x :: ts) :
    step s = .next { s with err := e, busy := false, seq := none, turns := ts, answer := x } :=
  (step_of_runs h hts).trans (exec_exit (s := { s with turns := ts, answer := x }) h)

/-- How every whole command begins (R85): the submission, and the guard that sends the command to `pos`. -/
theorem runFor_submitted {k : Nat} {pos : Pos} {ops : List HostOp} {o : Outcome State Fault Refusal}
    (hw : i.wf = true) (hguard : guardOf i s = pos) (hb : s.busy = false) (hp : s.program = submitOp i :: ops)
    (hts : s.turns = .host :: .controller x :: ts)
    (hrest : runFor k { s with
      busy := true, ovr := false, lastOp := opCode i, seq := some { cmd := i, pos := pos, answers := [] }
      program := ops, turns := ts, answer := x } = o) :
    runFor (k + 2) s = o :=
  runFor_step (step_submit hb hw hp hts)
    (runFor_step (step_guard ⟨rfl, rfl⟩ ((guardOf_congr rfl rfl).trans hguard) rfl) hrest)

/-- A whole command that its guard ends: the submission, the guard and the completion write ERR, LAST_OP and OVR
only. -/
theorem runFor_guardExit {e : ErrCode} {y : Option Answer} {ops : List HostOp} (hw : i.wf = true)
    (hguard : guardOf i s = .exit e) (hb : s.busy = false) (hp : s.program = submitOp i :: ops)
    (hts : s.turns = .host :: .controller x :: .controller y :: ts) :
    runFor 3 s = .next { s with
      seq := none, ovr := false, lastOp := opCode i, err := e, program := ops, turns := ts, answer := y } := by
  refine runFor_submitted hw hguard hb hp hts ?_
  refine runFor_step (step_exit ⟨rfl, rfl⟩ rfl) ?_
  simp [hb]

end Turns

/-- Settles O30: the submission, the bus-open check, BusOpen on a closed bus, and the completion. -/
theorem openRunOpensTheBus : Obligations.OpenRunOpensTheBus := by
  intro s a b d ops ts hb hp
  constructor
  · intro hclosed hts
    have hguard : guardOf .openBus s = .prim 0 := by simp [guardOf, openIfClosed, hclosed]
    refine runFor_submitted rfl hguard hb hp hts ?_
    refine runFor_step (step_busOpen ⟨rfl, rfl⟩ rfl rfl) ?_
    refine runFor_step (step_done ⟨rfl, rfl⟩ rfl rfl) ?_
    simp [hb, opCode]
  · intro hopen hts
    have hguard : guardOf .openBus s = .prim 1 := by simp [guardOf, openIfClosed, hopen]
    refine runFor_submitted rfl hguard hb hp hts ?_
    refine runFor_step (step_done ⟨rfl, rfl⟩ rfl rfl) ?_
    simp [hb, opCode]

/-- WRITE and READ need an open bus (R100). -/
theorem guardOf_writeOrRead {i : Instr} (h : opCode i = 2 ∨ opCode i = 3) : guardOf i = needBusOpen := by
  cases i with
  | write | read => rfl
  | openBus | detect | enable | rdacc | rdgyr | rdmag => simp [opCode] at h

/-- Settles O33: on a closed bus the guard ends the command. -/
theorem closedBusRunsNoTransaction : Obligations.ClosedBusRunsNoTransaction := by
  intro i s x y ops ts hw hop hb hclosed hp hts
  have hguard : guardOf i s = .exit .busClosed := by simp [guardOf_writeOrRead hop, needBusOpen, hclosed]
  exact runFor_guardExit hw hguard hb hp hts

theorem axisReads_wf {c : Config} {i : Instr} {dev : DevAddr} {rb : Byte} (h : (i, dev, rb) ∈ axisReads c) :
    i.wf = true := by
  simp only [axisReads, List.mem_cons, Prod.mk.injEq, List.not_mem_nil, or_false] at h
  obtain ⟨rfl, _⟩ | ⟨rfl, _⟩ | ⟨rfl, _⟩ := h <;> rfl

/-- Settles O36: an axis read is one bus read of 6 bytes, and a Verified block lets it through. -/
theorem axisRunReadsOneSample : Obligations.AxisRunReadsOneSample := by
  intro i dev rb s x y a ops ts hi hn hb hv hp hts
  obtain ⟨hproc, hguardOf, hdone⟩ := axisReads_cases hi
  have hguard : guardOf i s = .prim 0 := by simp [hguardOf, needVerified, hv]
  exact runFor_oneRead (axisReads_wf hi) hproc hdone hguard hn hb hp hts

/-! ### No transport command looks at VERIFIED (R105) -/

/-- No primitive reads or writes VERIFIED. -/
theorem runPrim_setVerified (p : Prim) (k : Nat) (q : Sequencer) (s : State) (v : Bool) :
    runPrim p k q { s with verified := v } = { runPrim p k q s with verified := v } := by
  cases p with
  | busOpen | delay => rfl
  | busWrite | busRead =>
    dsimp only [runPrim]
    split <;> rfl

/-- A completion without match bits neither reads nor writes VERIFIED. -/
theorem complete_setVerified {d : Completion} (h : d.idm = none) (s : State) (v : Bool) :
    complete d { s with verified := v } = { complete d s with verified := v } := by
  obtain ⟨err, rx, _⟩ := d
  cases h
  cases rx <;> rfl

/-- Only DETECT completes with match bits, and it is a driver command. -/
theorem doneOf_idm_of_transport {c : Config} {i : Instr} {as : List Answer} {d : Completion}
    (hi : isTransport i = true) (h : doneOf c i as = some d) : d.idm = none := by
  obtain ⟨_, hidm⟩ | ⟨_, _, _, _, hidm⟩ | ⟨rfl, _⟩ := doneOf_cases h
  · exact hidm
  · exact hidm
  · cases hi

/-- The guard of a transport command reads BUS_OPEN at most. -/
theorem guardOf_setVerified {i : Instr} (hi : isTransport i = true) (s : State) (v : Bool) :
    guardOf i { s with verified := v } = guardOf i s := by
  cases i with
  | openBus | write | read => rfl
  | detect | enable | rdacc | rdgyr | rdmag => cases hi

/-- A step of a command whose completion has no match bits is the same with any VERIFIED. -/
theorem commandTurn_setVerified {guard : Pos} {prims : List Prim} {done : List Answer → Option Completion}
    {q : Sequencer} {s t : State} (hdone : ∀ d, done q.answers = some d → d.idm = none)
    (h : commandTurn guard prims done q s = .next t) (v : Bool) :
    commandTurn guard prims done q { s with verified := v } = .next { t with verified := v } := by
  obtain ⟨hpos, rfl⟩ | ⟨e, hpos, rfl⟩ | ⟨k, p, hpos, hp, rfl⟩ | ⟨hpos, d, hd, rfl⟩ := commandTurn_cases h
  · exact commandTurn_start hpos
  · exact commandTurn_exit hpos
  · rw [commandTurn_prim hpos hp, runPrim_setVerified]
  · rw [commandTurn_done hpos hd, complete_setVerified (hdone d hd)]

/-- Settles O43: a submission never looks at VERIFIED, and a step of a transport command does not either. -/
theorem transportIgnoresVerified : Obligations.TransportIgnoresVerified := by
  intro i s t v hi h
  obtain ⟨hb, rfl⟩ | ⟨hb, q, hq, hne, rfl⟩ | ⟨hb, q, hq, rfl, hturn⟩ := exec_cases h
  · cases hw : i.wf with
    | true => exact exec_idle hb hw
    | false => exact exec_idle_illFormed hb hw
  · exact exec_drops hb hq hne
  · have hsame := commandTurn_setVerified (fun _ => doneOf_idm_of_transport hi) hturn v
    rw [← guardOf_setVerified hi s v] at hsame
    exact (exec_latched (s := { s with verified := v }) hb hq).trans hsame

end Sys2Proof.Machine
end

section
/-! SUPPORT. The obligations of 41_driver.md: DETECT and its identity checks (R131 to R133), the Verified guard (R141,
R150), `ENABLE_SEQ` (R142, R143), the magnetometer's register byte (R153) and the host's reading of a sample (R160). -/

namespace Sys2Proof

/-! ### The well-formedness of `ENABLE_SEQ` (R143) -/

theorem EnableEntry.enablesBdu_iff {d : SubDevice} {e : EnableEntry} :
    e.enablesBdu d = true ↔ e.sub = d ∧ .bdu ∈ e.roles := by
  simp [EnableEntry.enablesBdu]

theorem EnableEntry.starts_iff {d : SubDevice} {e : EnableEntry} :
    e.starts d = true ↔ e.sub = d ∧ .start ∈ e.roles := by
  simp [EnableEntry.starts]

/-- Entry `b` is the first that enables block-data-update on `d`. -/
def IsFirstBdu (d : SubDevice) (seq : List EnableEntry) (b : Nat) : Prop :=
  b < seq.length ∧ seq.findIdx (·.enablesBdu d) = b

theorem isFirstBdu_iff {d : SubDevice} {seq : List EnableEntry} {b : Nat} : IsFirstBdu d seq b ↔
    (∃ e, seq[b]? = some e ∧ e.enablesBdu d = true) ∧
      ∀ j e, j < b → seq[j]? = some e → ¬ e.enablesBdu d = true := by
  constructor
  · rintro ⟨hb, hidx⟩
    obtain ⟨hfirst, hbefore⟩ := (List.findIdx_eq hb).mp hidx
    refine ⟨⟨_, List.getElem?_eq_getElem hb, hfirst⟩, fun j e hj he => ?_⟩
    obtain ⟨_, rfl⟩ := List.getElem?_eq_some_iff.mp he
    simp [hbefore j hj]
  · rintro ⟨⟨e, he, hfirst⟩, hbefore⟩
    obtain ⟨hb, rfl⟩ := List.getElem?_eq_some_iff.mp he
    refine ⟨hb, (List.findIdx_eq hb).mpr ⟨hfirst, fun j hj => ?_⟩⟩
    exact eq_false_of_ne_true (hbefore j _ hj (List.getElem?_eq_getElem (hj.trans hb)))

theorem any_enablesBdu_iff {d : SubDevice} {seq : List EnableEntry} :
    seq.any (·.enablesBdu d) = true ↔ ∃ b, IsFirstBdu d seq b := by
  simp [IsFirstBdu, List.findIdx_lt_length]

theorem IsFirstBdu.takeWhile_eq {d : SubDevice} {seq : List EnableEntry} {b : Nat} (h : IsFirstBdu d seq b) :
    seq.takeWhile (fun e => !e.enablesBdu d) = seq.take b := by
  simp [List.takeWhile_eq_take_findIdx_not, h.2]

/-- No START in the first `b` entries: every START stands at `b` or after. -/
theorem take_all_not_starts_iff {d : SubDevice} {seq : List EnableEntry} {b : Nat} :
    (seq.take b).all (fun e => !e.starts d) = true ↔
      ∀ k e, seq[k]? = some e → e.starts d = true → b ≤ k := by
  simp only [List.all_eq_true, List.mem_iff_getElem?, List.getElem?_take]
  constructor
  · intro h k e hk hstart
    by_contra hlt
    simpa [hstart] using h e ⟨k, by rw [if_pos (not_le.mp hlt), hk]⟩
  · rintro h e ⟨k, hk⟩
    obtain ⟨hlt, hk⟩ := Option.ite_none_right_eq_some.mp hk
    rw [Bool.not_eq_true', ← Bool.not_eq_true]
    exact fun hstart => absurd (h k e hk hstart) (not_le.mpr hlt)

/-- R143, condition 2, by the indices of the entries. -/
theorem bduBeforeStart_iff {d : SubDevice} {seq : List EnableEntry} : bduBeforeStart d seq = true ↔
    ∀ b, IsFirstBdu d seq b → ∀ k e, seq[k]? = some e → e.starts d = true → b ≤ k := by
  rw [bduBeforeStart, Bool.or_eq_true, Bool.not_eq_true', ← Bool.not_eq_true, any_enablesBdu_iff, ← imp_iff_not_or,
    forall_exists_index]
  refine forall_congr' fun b => forall_congr' fun hb => ?_
  rw [hb.takeWhile_eq, take_all_not_starts_iff]

theorem enableSeqWf_iff {seq : List EnableEntry} : enableSeqWf seq = true ↔
    (∃ e ∈ seq, e.sub = .ag) ∧ (∃ e ∈ seq, e.sub = .m) ∧ ∀ d, bduBeforeStart d seq = true := by
  have both : (∀ d, bduBeforeStart d seq = true) ↔
      bduBeforeStart .ag seq = true ∧ bduBeforeStart .m seq = true :=
    ⟨fun h => ⟨h .ag, h .m⟩, fun ⟨hag, hm⟩ d => by cases d <;> assumption⟩
  simp [enableSeqWf, both, and_assoc]

theorem Config.checked_of_wf_false {c : Config} (h : c.wf = false) : Config.checked c = none := by
  simp [Config.checked, h]

/-- Settles O56: the check is R143's two conditions, condition 2 by the first BDU entry of each sub-device. -/
theorem enableSequenceWellFormed : Obligations.EnableSequenceWellFormed := by
  refine ⟨fun seq => ?_, fun c h => Config.checked_of_wf_false (by simp [Config.wf, h])⟩
  simp only [enableSeqWf_iff, bduBeforeStart_iff, isFirstBdu_iff, EnableEntry.enablesBdu_iff, EnableEntry.starts_iff]
  refine and_congr_right fun _ => and_congr_right fun _ => ⟨?_, ?_⟩
  · exact fun h d b eb hb hsub hbdu hbefore k e hk hd hstart =>
      h d b ⟨⟨eb, hb, hsub, hbdu⟩, fun j e hj he ⟨hsub, hbdu⟩ => hbefore j e hj he hsub hbdu⟩ k e hk ⟨hd, hstart⟩
  · rintro h d b ⟨⟨eb, hb, hsub, hbdu⟩, hbefore⟩ k e hk ⟨hd, hstart⟩
    exact h d b eb hb hsub hbdu (fun j e hj he hd hbdu => hbefore j e hj he ⟨hd, hbdu⟩) k e hk hd hstart

end Sys2Proof

namespace Sys2Proof.Machine

/-! ### Bytes and values -/

/-- Settles O25: R132's match is an answer of one byte. -/
theorem identityCheckMatches : Obligations.IdentityCheckMatches := fun _ _ => idMatch_iff

/-- Settles O58: 0x80 is the byte whose bit 7 alone is set. -/
theorem magnetometerBitIsSet : Obligations.MagnetometerBitIsSet := by
  intro c k
  have mask : (0x80 : Byte) = BitVec.twoPow 8 7 := by decide
  rw [magRegByte, mask, BitVec.getLsbD_or, BitVec.getLsbD_twoPow, Bool.or_comm]
  simp [eq_comm]

/-- The sign of a sample value is the top bit of its high byte (R160; log 13). -/
theorem sample16_eq (lo hi : Byte) :
    sample16 lo hi = lo.toNat + 256 * hi.toNat - (if 0x80 ≤ hi.toNat then 65536 else 0) := by
  have hlow : sample16 lo hi = 2 ^ 8 * hi.toInt + lo.toNat := BitVec.toInt_append
  rw [hlow, BitVec.toInt_eq_toNat_cond]
  split <;> split <;> omega

/-- A valid value has both its bytes received. -/
theorem valueValid_succ {s : State} {lo : Nat} (h : s.valueValid (lo + 1) = true) :
    lo < s.rxcnt.toNat ∧ lo + 1 < s.rxcnt.toNat := by
  have hhigh : lo + 1 < s.rxcnt.toNat := of_decide_eq_true h
  exact ⟨Nat.lt_of_succ_lt hhigh, hhigh⟩

theorem sampleValid_iff {s : State} : s.sampleValid = true ↔ s.err = .ok ∧ s.rxcnt = 6 := by
  simp [State.sampleValid]

/-- Settles O59: three pairs of bytes, each read by `sample16`, with the two validity conditions. -/
theorem sampleValues : Obligations.SampleValues := fun _ =>
  ⟨sample16_eq _ _, sample16_eq _ _, sample16_eq _ _, fun _ => valueValid_succ, sampleValid_iff.mp⟩

/-! ### ENABLE and the roles (R142) -/

/-- The writes of ENABLE are made of the sub-device, the register and the value of each entry. -/
theorem enablePrims_withoutRoles (c : Config) : enablePrims (withoutRoles c) = enablePrims c := by
  rw [enablePrims, withoutRoles, List.map_map]
  rfl

/-- Settles O44: ENABLE's step reads the configuration through its writes only. -/
theorem enableIgnoresRoles : Obligations.EnableIgnoresRoles := by
  intro c s
  rw [enableStep, enablePrims_withoutRoles, enableStep]

/-! ### The Verified guard (R141, R150) -/

/-- ENABLE and the axis reads need a Verified block, and each has a word. -/
theorem guardOf_enableOrAxis {i : Instr} (h : i ∈ [Instr.enable, .rdacc, .rdgyr, .rdmag]) :
    guardOf i = needVerified ∧ i.wf = true := by
  revert i
  simp only [List.forall_mem_cons]
  exact ⟨⟨rfl, rfl⟩, ⟨rfl, rfl⟩, ⟨rfl, rfl⟩, ⟨rfl, rfl⟩, by simp⟩

/-- Settles O37: on an Unverified block the guard ends the command. -/
theorem unverifiedGuardRunsNothing : Obligations.UnverifiedGuardRunsNothing := by
  intro i s x y ops ts hi hb hv hp hts
  obtain ⟨hguardOf, hw⟩ := guardOf_enableOrAxis hi
  have hguard : guardOf i s = .exit .notVerified := by simp [hguardOf, needVerified, hv]
  exact runFor_guardExit hw hguard hb hp hts

/-! ### DETECT (R131, R133) -/

section Turns

variable {s : State} {x : Option Answer} {ts : List Turn}

/-- The turn of a settling delay (R63, R131). -/
theorem step_delay {i : Instr} {as : List Answer} {k t : Nat} (h : Runs i (.prim k) as s)
    (hp : (procedure Config.params.cfg i)[k]? = some (.delay t)) (hts : s.turns = .controller x :: ts) :
    step s = .next { s with
      log := s.log ++ [.evDelay t]
      seq := some { cmd := i, pos := .prim (k + 1), answers := as }, turns := ts, answer := x } :=
  (step_of_runs h hts).trans (exec_prim (s := { s with turns := ts, answer := x }) h hp)

/-- DETECT's turn of completion is its last step of R131. -/
theorem step_detectDone {c : Config} {a m : Answer} (hc : c = Config.params.cfg)
    (h : Runs .detect (.prim 4) [a, m] s) (hts : s.turns = .controller x :: ts) :
    step s = .next { s with
      idmAg := idMatch a c.idAgVal, idmM := idMatch m c.idMVal
      verified := s.verified || (idMatch a c.idAgVal && idMatch m c.idMVal)
      err := if idMatch a c.idAgVal && idMatch m c.idMVal then .ok else .absent
      busy := false, seq := none, turns := ts, answer := x } := by
  subst hc
  exact (step_of_runs h hts).trans (exec_done (s := { s with turns := ts, answer := x }) h rfl)

/-- What is left of a DETECT once the bus is open: the delay, the two answered identity reads and the completion. -/
theorem runFor_detectOpened {c : Config} {z v : Option Answer} {a m : Answer} (hc : c = Config.params.cfg)
    (ha : a.bytes.length ≤ 1) (hm : m.bytes.length ≤ 1) (h : Runs .detect (.prim 1) [] s)
    (hts : s.turns = .controller z :: .controller (some a) :: .controller (some m) :: .controller v :: ts) :
    runFor 4 s = .next { s with
      busy := false, seq := none
      idmAg := idMatch a c.idAgVal, idmM := idMatch m c.idMVal
      verified := s.verified || (idMatch a c.idAgVal && idMatch m c.idMVal)
      err := if idMatch a c.idAgVal && idMatch m c.idMVal then .ok else .absent
      log := s.log ++ [.evDelay c.tSettle, .evRead c.addrAg c.idAgReg 1 a.ok a.bytes,
        .evRead c.addrM c.idMReg 1 m.ok m.bytes]
      turns := ts, answer := v } := by
  have running : s.busy = true := h.1
  refine runFor_step (step_delay h rfl hts) ?_
  refine runFor_step (step_busRead ⟨running, rfl⟩ rfl ha rfl) ?_
  refine runFor_step (step_busRead ⟨running, rfl⟩ rfl hm rfl) ?_
  refine runFor_step (step_detectDone hc ⟨running, rfl⟩ rfl) ?_
  simp [hc]

end Turns

/-- Settles O34: the submission, the bus-open check, BusOpen on a closed bus, and what is left from there. -/
theorem detectRunChecksBothIdentities : Obligations.DetectRunChecksBothIdentities := by
  intro c s x y z v a m ops ts hc ha hm hb hp
  constructor
  · intro hclosed hts
    have hguard : guardOf .detect s = .prim 0 := by simp [guardOf, openIfClosed, hclosed]
    refine runFor_submitted rfl hguard hb hp hts ?_
    refine runFor_step (step_busOpen ⟨rfl, rfl⟩ rfl rfl) ?_
    refine (runFor_detectOpened hc ha hm ⟨rfl, rfl⟩ rfl).trans ?_
    simp [hb, opCode]
  · intro hopen hts
    have hguard : guardOf .detect s = .prim 1 := by simp [guardOf, openIfClosed, hopen]
    refine runFor_submitted rfl hguard hb hp hts ?_
    refine (runFor_detectOpened hc ha hm ⟨rfl, rfl⟩ rfl).trans ?_
    simp [hb, opCode]

/-- Settles O49: VERIFIED changes to 1 only (R130), and DETECT's completion writes R133's value. -/
theorem detectionIsMonotonic : Obligations.DetectionIsMonotonic := by
  obtain ⟨_, changes_to_one⟩ := onlyMatchingDetectVerifies
  constructor
  · intro s t hr h hv
    by_contra hlost
    have hne : t.verified ≠ s.verified := by rwa [hv]
    obtain ⟨hone, _⟩ := changes_to_one s t hr h hne
    exact hlost hone
  · intro s t a m hruns h
    cases (exec_done hruns rfl).symm.trans h
    rfl

end Sys2Proof.Machine
end

section
/-! SUPPORT. The obligations of 60_exceptions.md about the error codes: their numbers, and which command completes
with which. -/

namespace Sys2Proof.Machine

/-- Settles O52: the step completes the command with one of its codes, or the sequencer still runs, which on an idle
block the invariant of the next state excludes. -/
theorem commandsCompleteWithTheirCodes : Obligations.CommandsCompleteWithTheirCodes := by
  intro s t q inv hq h hidle
  have hb : s.busy = true := inv.busy_of_seq hq
  rw [exec_latched hb hq] at h
  rcases commandTurn_progress inv hq h with ⟨_, hcode⟩ | ⟨q', hq', _⟩
  · exact hcode
  · have still_busy : t.busy = true := (inv.after_turn hb hq h).busy_of_seq hq'
    simp [hidle] at still_busy

/-- Settles O17: each code's number by its definition; STATUS shows the number of the code in ERR. -/
theorem errorCodeNumbers : Obligations.ErrorCodeNumbers := by
  refine ⟨rfl, rfl, rfl, rfl, rfl, rfl, rfl, fun s => ?_⟩
  rw [status_err]
  exact errBits_toNat_le s.err

end Sys2Proof.Machine
end

section
/-! SUPPORT. The obligations of 70_reset_and_hazards.md: the reset input, the idle block, and what the host still
sees while a command runs. -/

namespace Sys2Proof.Machine

/-! ### Reset and the idle block -/

/-- Block reset leaves nothing of the block it finds (R39, R200). -/
theorem sameBlock_blockReset (s : State) : SameBlock (blockReset s) State.reset := by constructor <;> rfl

/-- The controller of an idle block has no command to run (R202). -/
theorem controllerStep_idle {s : State} (hb : s.busy = false) : controllerStep exec s = .next s := by
  simp [controllerStep, hb]

/-- Settles O20: the step of the reset input is the block reset, whatever state it finds. -/
theorem resetTurnResetsTheBlock : Obligations.ResetTurnResetsTheBlock := by
  intro s ts hts
  exact ⟨_, step_reset hts, sameBlock_blockReset _⟩

/-- Settles O15: the reset state by R39, and the controller's step of an idle block. -/
theorem idleControllerDoesNothing : Obligations.IdleControllerDoesNothing := by
  refine ⟨⟨rfl, rfl⟩, fun s a ts hts hb => ?_⟩
  rw [step_controller hts]
  exact controllerStep_idle hb

/-! ### The results of a running command -/

/-- A step of the running command that does not complete it leaves the result fields (R211): of the four kinds of
step, the two completions clear BUSY, and neither the guard check nor a primitive writes a result field. -/
theorem commandTurn_results {guard : Pos} {prims : List Prim} {done : List Answer → Option Completion}
    {q : Sequencer} {s t : State} (h : commandTurn guard prims done q s = .next t) (hb : t.busy = true) :
    t.err = s.err ∧ t.rxcnt = s.rxcnt ∧ t.rxbuf = s.rxbuf ∧ t.verified = s.verified ∧
      t.idmAg = s.idmAg ∧ t.idmM = s.idmM := by
  rcases commandTurn_cases h with ⟨_, rfl⟩ | ⟨e, _, rfl⟩ | ⟨k, p, _, _, rfl⟩ | ⟨_, d, _, rfl⟩
  · simp
  · simp at hb
  · simp
  · simp at hb

/-- Settles O39: on a busy block a step leaves the block, drops a submission or takes a step of the command. -/
theorem resultsStayUntilCompletion : Obligations.ResultsStayUntilCompletion := by
  intro s t hr hb h hbt
  rcases step_block_cases h hr with ⟨_, same⟩ | ⟨w, u, _, _, same, sub⟩ | ⟨q, _, _, hq, hx⟩
  · exact ⟨same.err, same.rxcnt, same.rxbuf, same.verified, same.idmAg, same.idmM⟩
  · have hbu : u.busy = true := same.busy.trans hb
    obtain rfl : t = dropSubmission u := by simpa [Submitted, hbu] using sub
    exact ⟨same.err, same.rxcnt, same.rxbuf, same.verified, same.idmAg, same.idmM⟩
  · simpa using commandTurn_results (commandTurn_of_exec hb hq hx) hbt

end Sys2Proof.Machine
end
